-- ==== Sys2Proof/Word.lean ====
section
/-! DEFINITION. The words of the block: a command word (spec/30_encoding.md R90), a 64-bit register
container and a sample (spec/10_state.md R25: under binary64 the container of type S is the 64 bits of the value). -/

namespace Sys2Proof

/-- A 32-bit command word (R90), and the width of a U32 register (R25). -/
abbrev Word := BitVec 32

/-- One sample under `NUM = binary64` (R7 (b)): the 64 bits of the IEEE 754 value. -/
abbrev Sample := BitVec 64

/-- A 64-bit register container of the register port (R25). -/
abbrev Container := BitVec 64

/-- The number of a grid register `g0..g7` (R22) or of a descriptor `d0..d7` (R23). -/
abbrev RegNum := Fin 8

end Sys2Proof
end

