-- ==== Sys2Proof/Syntax.lean ====
section
/-! DEFINITION. The 35 commands of the opcode map (spec/30_encoding.md R94, spec/opcode_table.json), one constructor per
row, with the operands in field order. -/

namespace Sys2Proof

/-- The table selector `t` (R93): 0 is the luma table, 1 the chroma table. -/
inductive TableSel where
  | luma
  | chroma
  deriving DecidableEq, Repr

/-- One command (R94). `gd`, `gs` are grid registers, `dd`, `ds`, `da`, `db` descriptors; `m` is the two-bit field of
the chroma mode, of which 3 is reserved. -/
inductive Instr where
  | nop
  | config
  | dset (dd : RegNum)
  | gld (gd ds : RegNum)
  | gst (dd gs : RegNum)
  | gmov (gd gs : RegNum)
  | gzero (gd : RegNum)
  | gqt (gd : RegNum) (t : TableSel)
  | split (dd ds : RegNum)
  | merge (dd ds : RegNum)
  | copy (dd ds : RegNum)
  | cscF (dd ds : RegNum)
  | cscI (dd ds : RegNum)
  | dctF (gd gs : RegNum)
  | dctI (gd gs : RegNum)
  | haar8F (gd gs : RegNum)
  | haar8I (gd gs : RegNum)
  | dwtLev (ds : RegNum)
  | dwtF (dd ds : RegNum)
  | dwtI (dd ds : RegNum)
  | qBlk (gd gs : RegNum) (t : TableSel)
  | dqBlk (gd gs : RegNum) (t : TableSel)
  | qwBlk (gd gs : RegNum)
  | dqwBlk (gd gs : RegNum)
  | qwPln (dd ds : RegNum)
  | dqwPln (dd ds : RegNum)
  | bitsBlk (gs : RegNum)
  | bitsPln (ds : RegNum)
  | cdown (dd ds : RegNum) (m : BitVec 2)
  | cup (dd ds : RegNum) (m : BitVec 2)
  | procPln (dd ds : RegNum) (t : TableSel)
  | inspect (ds : RegNum) (t : TableSel)
  | psnr (da db : RegNum)
  | ssim (da db : RegNum)
  | artmap (dd da db : RegNum)
  deriving DecidableEq, Repr

end Sys2Proof
end

