-- ==== Sys2Proof/WellFormed.lean ====
section
/-! DEFINITION. Which terms of `Instr` are commands. Every value of a three-bit register field names a register (R97) and
both values of `t` a table (R93), so the types carry those checks; what is left is the reserved chroma mode. -/

namespace Sys2Proof

/-- Chroma mode 3 is reserved (R92 step 3, R93, R230). -/
def modeLegal (m : BitVec 2) : Bool := m != 3#2

/-- A term of `Instr` that some command word encodes (R92). -/
def Instr.wellFormed (i : Instr) : Bool :=
  match i with
  | .cdown _ _ m => modeLegal m
  | .cup _ _ m => modeLegal m
  | .nop | .config | .dset .. | .gld .. | .gst .. | .gmov .. | .gzero .. | .gqt .. | .split .. | .merge .. | .copy ..
  | .cscF .. | .cscI .. | .dctF .. | .dctI .. | .haar8F .. | .haar8I .. | .dwtLev .. | .dwtF .. | .dwtI .. | .qBlk ..
  | .dqBlk .. | .qwBlk .. | .dqwBlk .. | .qwPln .. | .dqwPln .. | .bitsBlk .. | .bitsPln .. | .procPln .. | .inspect ..
  | .psnr .. | .ssim .. | .artmap .. => true

end Sys2Proof
end

