-- ==== Sys2Proof/Decode.lean ====
section
/-! DEFINITION. The command word: fields, formats, decoder and encoder (spec/30_encoding.md R90 to R96). Decoding is total:
every word selects one command or is rejected by name. -/

namespace Sys2Proof

/-! ## Fields (R90) -/

/-- `op`, bits 31:24. -/
def opField (w : Word) : BitVec 8 := w.extractLsb' 24 8

/-- Field `a`, bits 23:21. -/
def fieldA (w : Word) : RegNum := (w.extractLsb' 21 3).toFin

/-- Field `b`, bits 20:18. -/
def fieldB (w : Word) : RegNum := (w.extractLsb' 18 3).toFin

/-- Field `c`, bits 17:15. -/
def fieldC (w : Word) : RegNum := (w.extractLsb' 15 3).toFin

/-- Field `m`, bits 14:13. -/
def fieldM (w : Word) : BitVec 2 := w.extractLsb' 13 2

/-- The table selector `t`, bit 13 (R93). -/
def fieldT (w : Word) : TableSel := if w.getLsbD 13 then .chroma else .luma

/-! ## Formats (R91) -/

/-- The seven formats: which fields a command uses. -/
inductive Format where
  | N
  | A
  | AB
  | ABC
  | ABM
  | ABT
  | AT
  deriving DecidableEq, Repr

/-- The mask of a format: 1 at every bit that must match, 0 at every bit of a used field. -/
def Format.mask (f : Format) : Word :=
  match f with
  | .N => 0xFFFFFFFF#32
  | .A => 0xFF1FFFFF#32
  | .AB => 0xFF03FFFF#32
  | .ABC => 0xFF007FFF#32
  | .ABM => 0xFF039FFF#32
  | .ABT => 0xFF03DFFF#32
  | .AT => 0xFF1FDFFF#32

/-! ## Decoding (R92) -/

/-- Why a word is no command. Each reason faults `ILLEGAL_CMD` (R92, R96). -/
inductive DecodeError where
  /-- No row of the opcode map has this `op` (step 1). -/
  | unassignedOpcode
  /-- A must-be-zero bit of the row's format is set (step 2). -/
  | mustBeZero
  /-- `CDOWN` or `CUP` with `m = 3` (step 3). -/
  | reservedMode
  deriving DecidableEq, Repr

/-- Step 2 of R92: the bits outside the format's fields are those of `op << 24`. -/
def decodeAs (w : Word) (f : Format) (i : Instr) : Except DecodeError Instr :=
  if w &&& f.mask = (opField w).setWidth 32 <<< 24 then .ok i else .error .mustBeZero

/-- Steps 2 and 3 of R92 for `CDOWN` and `CUP`. -/
def decodeMode (w : Word) (i : Instr) : Except DecodeError Instr :=
  if w &&& Format.ABM.mask = (opField w).setWidth 32 <<< 24 then
    (if modeLegal (fieldM w) then .ok i else .error .reservedMode)
  else .error .mustBeZero

/-- The decoder (R92) over the opcode map (R94). -/
def decode (w : Word) : Except DecodeError Instr :=
  let a := fieldA w
  let b := fieldB w
  let c := fieldC w
  let m := fieldM w
  let t := fieldT w
  match (opField w).toNat with
  | 0x00 => decodeAs w .N .nop
  | 0x01 => decodeAs w .N .config
  | 0x02 => decodeAs w .A (.dset a)
  | 0x10 => decodeAs w .AB (.gld a b)
  | 0x11 => decodeAs w .AB (.gst a b)
  | 0x12 => decodeAs w .AB (.gmov a b)
  | 0x13 => decodeAs w .A (.gzero a)
  | 0x14 => decodeAs w .AT (.gqt a t)
  | 0x18 => decodeAs w .AB (.split a b)
  | 0x19 => decodeAs w .AB (.merge a b)
  | 0x1A => decodeAs w .AB (.copy a b)
  | 0x20 => decodeAs w .AB (.cscF a b)
  | 0x21 => decodeAs w .AB (.cscI a b)
  | 0x30 => decodeAs w .AB (.dctF a b)
  | 0x31 => decodeAs w .AB (.dctI a b)
  | 0x40 => decodeAs w .AB (.haar8F a b)
  | 0x41 => decodeAs w .AB (.haar8I a b)
  | 0x44 => decodeAs w .A (.dwtLev a)
  | 0x45 => decodeAs w .AB (.dwtF a b)
  | 0x46 => decodeAs w .AB (.dwtI a b)
  | 0x50 => decodeAs w .ABT (.qBlk a b t)
  | 0x51 => decodeAs w .ABT (.dqBlk a b t)
  | 0x52 => decodeAs w .AB (.qwBlk a b)
  | 0x53 => decodeAs w .AB (.dqwBlk a b)
  | 0x54 => decodeAs w .AB (.qwPln a b)
  | 0x55 => decodeAs w .AB (.dqwPln a b)
  | 0x58 => decodeAs w .A (.bitsBlk a)
  | 0x59 => decodeAs w .A (.bitsPln a)
  | 0x60 => decodeMode w (.cdown a b m)
  | 0x61 => decodeMode w (.cup a b m)
  | 0x70 => decodeAs w .ABT (.procPln a b t)
  | 0x71 => decodeAs w .AT (.inspect a t)
  | 0x80 => decodeAs w .AB (.psnr a b)
  | 0x81 => decodeAs w .AB (.ssim a b)
  | 0x82 => decodeAs w .ABC (.artmap a b c)
  | _ => .error .unassignedOpcode

/-! ## Encoding (R90, R94, R100) -/

/-- The opcode of a command (R94). -/
def Instr.opcode (i : Instr) : BitVec 8 :=
  match i with
  | .nop => 0x00#8
  | .config => 0x01#8
  | .dset _ => 0x02#8
  | .gld _ _ => 0x10#8
  | .gst _ _ => 0x11#8
  | .gmov _ _ => 0x12#8
  | .gzero _ => 0x13#8
  | .gqt _ _ => 0x14#8
  | .split _ _ => 0x18#8
  | .merge _ _ => 0x19#8
  | .copy _ _ => 0x1A#8
  | .cscF _ _ => 0x20#8
  | .cscI _ _ => 0x21#8
  | .dctF _ _ => 0x30#8
  | .dctI _ _ => 0x31#8
  | .haar8F _ _ => 0x40#8
  | .haar8I _ _ => 0x41#8
  | .dwtLev _ => 0x44#8
  | .dwtF _ _ => 0x45#8
  | .dwtI _ _ => 0x46#8
  | .qBlk _ _ _ => 0x50#8
  | .dqBlk _ _ _ => 0x51#8
  | .qwBlk _ _ => 0x52#8
  | .dqwBlk _ _ => 0x53#8
  | .qwPln _ _ => 0x54#8
  | .dqwPln _ _ => 0x55#8
  | .bitsBlk _ => 0x58#8
  | .bitsPln _ => 0x59#8
  | .cdown _ _ _ => 0x60#8
  | .cup _ _ _ => 0x61#8
  | .procPln _ _ _ => 0x70#8
  | .inspect _ _ => 0x71#8
  | .psnr _ _ => 0x80#8
  | .ssim _ _ => 0x81#8
  | .artmap _ _ _ => 0x82#8

/-- The format of a command (R94). -/
def Instr.format (i : Instr) : Format :=
  match i with
  | .nop | .config => .N
  | .dset _ | .gzero _ | .dwtLev _ | .bitsBlk _ | .bitsPln _ => .A
  | .gqt _ _ | .inspect _ _ => .AT
  | .qBlk _ _ _ | .dqBlk _ _ _ | .procPln _ _ _ => .ABT
  | .cdown _ _ _ | .cup _ _ _ => .ABM
  | .artmap _ _ _ => .ABC
  | .gld _ _ | .gst _ _ | .gmov _ _ | .split _ _ | .merge _ _ | .copy _ _ | .cscF _ _ | .cscI _ _ | .dctF _ _
  | .dctI _ _ | .haar8F _ _ | .haar8I _ _ | .dwtF _ _ | .dwtI _ _ | .qwBlk _ _ | .dqwBlk _ _ | .qwPln _ _
  | .dqwPln _ _ | .psnr _ _ | .ssim _ _ => .AB

/-- The bit of a table selector (R93). -/
def TableSel.bit (t : TableSel) : BitVec 1 :=
  match t with
  | .luma => 0#1
  | .chroma => 1#1

/-- The fields of R90 put together: `op << 24 | a << 21 | b << 18 | c << 15 | m << 13`. -/
def assemble (op : BitVec 8) (a b c : RegNum) (m : BitVec 2) : Word :=
  op ++ BitVec.ofFin (w := 3) a ++ BitVec.ofFin (w := 3) b ++ BitVec.ofFin (w := 3) c ++ m ++ 0#13

/-- The word of a command (R100's `encode`). A field its format does not use is 0. -/
def encode (i : Instr) : Word :=
  match i with
  | .nop | .config => assemble i.opcode 0 0 0 0
  | .dset a | .gzero a | .dwtLev a | .bitsBlk a | .bitsPln a => assemble i.opcode a 0 0 0
  | .gqt a t | .inspect a t => assemble i.opcode a 0 0 (0#1 ++ t.bit)
  | .qBlk a b t | .dqBlk a b t | .procPln a b t => assemble i.opcode a b 0 (0#1 ++ t.bit)
  | .cdown a b m | .cup a b m => assemble i.opcode a b 0 m
  | .artmap a b c => assemble i.opcode a b c 0
  | .gld a b | .gst a b | .gmov a b | .split a b | .merge a b | .copy a b | .cscF a b | .cscI a b | .dctF a b
  | .dctI a b | .haar8F a b | .haar8I a b | .dwtF a b | .dwtI a b | .qwBlk a b | .dqwBlk a b | .qwPln a b
  | .dqwPln a b | .psnr a b | .ssim a b => assemble i.opcode a b 0 0

/-- The command the decoder reads from the bits of an opcode-table row: `w` below bit `nbits`, zeros above. Every command
is one 32-bit word (R90), and byte order is not observable (R63). -/
def decodeTableWord (nbits w : Nat) : Option Instr :=
  (decode (BitVec.ofNat 32 (w % 2 ^ nbits))).toOption

end Sys2Proof
end

