-- ==== Sys2Proof/Config.lean ====
section
/-! DEFINITION. The parameters of the block (spec/00_scope.md R5) and the values the spec leaves open.
An `opaque` constant has no body that a proof could see: a statement about it holds whatever its value is. -/

namespace Sys2Proof.Config

/-! ## Values the spec leaves open -/

/-- `log2` of `NUM = binary64` (R7): "a model assumes only that they are functions of their operand". -/
opaque log2 : Sample → Sample

/-- `log10` of `NUM = binary64` (R7), as open as `log2`. -/
opaque log10 : Sample → Sample

/-- The open choice behind `HDR_BITS` (R216, D38): 63 bits from which `hdrBits` makes a finite sample ≥ 0. -/
opaque hdrCode : BitVec 63

/-- `HDR_BITS`, the bit estimator's header constant: OPEN, "a finite sample, ≥ 0" (92_eei_decisions.md D38).
Every finite nonnegative binary64 value is the value of some code, so no such value is excluded. -/
def hdrBits : Sample :=
  if hdrCode.toNat < 0x7FF0000000000000 then hdrCode.setWidth 64 else 0#64

/-- The sample at an address nothing has written since power-up (R48, R341: "any value"; the initial memory is an
arbitrary parameter of the run). -/
opaque powerUp : Nat → Sample

/-- The outputs of a command whose inputs include a non-finite sample (R10: "any value"): a function of the number of
the command (`State.freeCount`) and of the place of the output. -/
opaque anySample : Nat → Nat → Sample

/-- Sign and payload of the quiet NaN an invalid binary64 operation makes; IEEE 754 fixes neither.
A function of the operation's number and its operands. -/
opaque nanPayload : Nat → Sample → Sample → BitVec 52

/-- `min` and `max` with a NaN operand: "outside the spec" (R152 with R10). -/
opaque minMaxOfNaN : Nat → Sample → Sample → Sample

/-! ## Parameters with a value in the spec -/

/-- `DWT_MAX_LEVELS` (R5): the level count is "capped at 6". -/
def dwtMaxLevels : Nat := 6

/-- `BASE_LUMA` (R201, D29): the default luma base table, row by row as the rule prints it. -/
def baseLuma : List (List Nat) :=
  [[16, 11, 10, 16, 24, 40, 51, 61],
   [12, 12, 14, 19, 26, 58, 60, 55],
   [14, 13, 16, 24, 40, 57, 69, 56],
   [14, 17, 22, 29, 51, 87, 80, 62],
   [18, 22, 37, 56, 68, 109, 103, 77],
   [24, 35, 55, 64, 81, 104, 113, 92],
   [49, 64, 78, 87, 103, 121, 120, 101],
   [72, 92, 95, 98, 112, 100, 103, 99]]

/-- `BASE_CHROMA` (R201, D29): the default chroma base table. -/
def baseChroma : List (List Nat) :=
  [[17, 18, 24, 47, 99, 99, 99, 99],
   [18, 21, 26, 66, 99, 99, 99, 99],
   [24, 26, 56, 99, 99, 99, 99, 99],
   [47, 66, 99, 99, 99, 99, 99, 99],
   [99, 99, 99, 99, 99, 99, 99, 99],
   [99, 99, 99, 99, 99, 99, 99, 99],
   [99, 99, 99, 99, 99, 99, 99, 99],
   [99, 99, 99, 99, 99, 99, 99, 99]]

end Sys2Proof.Config
end

