-- ==== Sys2Proof/Machine/Numeric.lean ====
section
/-! DEFINITION. `NUM` (spec/00_scope.md R7): the numeric realisation every arithmetic rule is written over. The family
files state their arithmetic once, over any `Num`; the machine runs it over `Binary64.num`, and `Reference.lean` gives the
exact instance over the reals. -/

namespace Sys2Proof.Machine

/-- The numeric realisation `NUM` (R7): constants and total operations on the sample type `S`. -/
structure Num (S : Type) where
  /-- Sum. -/
  add : S → S → S
  /-- Difference. -/
  sub : S → S → S
  /-- Product. -/
  mul : S → S → S
  /-- Quotient. -/
  div : S → S → S
  /-- Negation. -/
  neg : S → S
  /-- Absolute value. -/
  abs : S → S
  /-- The smaller of two. -/
  min : S → S → S
  /-- The larger of two. -/
  max : S → S → S
  /-- Strictly less. -/
  lt : S → S → Bool
  /-- Less or equal. -/
  le : S → S → Bool
  /-- The sample of an integer. -/
  ofInt : Int → S
  /-- `ofDec m k` is the sample of the decimal literal `m · 10^(-k)`. -/
  ofDec : Nat → Nat → S
  /-- `RND`: the nearest integer, a tie away from zero (R9). -/
  rnd : S → S
  /-- `pow2 l` is `2^l`. -/
  pow2 : Nat → S
  /-- Binary logarithm. -/
  log2 : S → S
  /-- Decimal logarithm. -/
  log10 : S → S
  /-- `√2` (R172). -/
  sqrt2 : S
  /-- `C(0) = 1/√2` (R160). -/
  invSqrt2 : S
  /-- `ck = cos(k·π/16)` for k in 0..7 (R161). -/
  ck : Nat → S

/-- The sum of a list, accumulated from 0 in list order (R13: the order matters only under binary64). -/
def Num.sum {S : Type} (N : Num S) (xs : List S) : S :=
  xs.foldl N.add (N.ofInt 0)

end Sys2Proof.Machine
end

