-- ==== Sys2Proof/Machine/Binary64.lean ====
section
/-! DEFINITION. `NUM = binary64` (spec/00_scope.md R7 (b), the default): IEEE 754 binary64 on the 64 bits of a sample,
rounded to nearest, ties to even, one operation at a time. A finite value is a whole multiple of 2^-1074, so each
operation computes exactly on integers and is narrowed once, by `roundMag`. The operations on numbers of a thousand bits
are irreducible, so that comparing two terms never evaluates them by accident; the kernel evaluates them. -/

namespace Sys2Proof.Machine.Binary64

/-- The magnitude bits of infinity: exponent field all ones, fraction zero. -/
def infMag : Nat := 0x7FF0000000000000

/-- The sign bit (bit 63). -/
def sign (x : Sample) : Bool := x.msb

/-- The 63 bits below the sign, as a number: larger bits are a larger magnitude. -/
def magBits (x : Sample) : Nat := x.toNat % 2 ^ 63

/-- A NaN: exponent field all ones, fraction not zero. -/
def isNaN (x : Sample) : Bool := infMag < magBits x

/-- An infinity of either sign. -/
def isInf (x : Sample) : Bool := magBits x == infMag

/-- A finite sample: neither an infinity nor a NaN (R10). -/
def isFinite (x : Sample) : Bool := magBits x < infMag

/-- A zero of either sign. -/
def isZero (x : Sample) : Bool := magBits x == 0

/-- The sample with a sign and magnitude bits. -/
def pack (neg : Bool) (mag : Nat) : Sample :=
  BitVec.ofNat 64 ((if neg then 2 ^ 63 else 0) + mag)

/-- The magnitude of a finite sample, counted in units of 2^-1074. -/
def units (x : Sample) : Nat :=
  let e := magBits x / 2 ^ 52
  let f := magBits x % 2 ^ 52
  if e = 0 then f else (2 ^ 52 + f) * 2 ^ (e - 1)

/-- The value of a finite sample, counted in units of 2^-1074. -/
def value (x : Sample) : Int :=
  if sign x then -(units x : Int) else units x

/-- `n / d` rounded to the nearest integer, ties to even. -/
def nearestEven (n d : Nat) : Nat :=
  if d < 2 * (n % d) ∨ (2 * (n % d) = d ∧ n / d % 2 = 1) then n / d + 1 else n / d

/-- The magnitude bits of the binary64 value nearest `n / d`, ties to even; beyond the largest finite value, infinity.
`k` is how many places the unit 2^-1074 is scaled up so that the significand keeps 53 bits. -/
@[irreducible] def roundMag (n d : Nat) : Nat :=
  let u := n * 2 ^ 1074
  let k := (u / d).log2 - 52
  Nat.min infMag (k * 2 ^ 52 + nearestEven u (d * 2 ^ k))

/-- The quiet NaN of an invalid operation: its sign and payload are open (`Config.nanPayload`). -/
def quietNaN (op : Nat) (a b : Sample) : Sample :=
  let p := Config.nanPayload op a b
  p.extractLsb' 51 1 ++ 0xFFF#12 ++ p.extractLsb' 0 51

/-- IEEE addition. An exact zero sum is negative only when both operands are. -/
@[irreducible] def add (a b : Sample) : Sample :=
  if isNaN a || isNaN b then quietNaN 0 a b
  else if isInf a then (if isInf b && sign a != sign b then quietNaN 0 a b else a)
  else if isInf b then b
  else
    let v := value a + value b
    if v = 0 then pack (sign a && sign b) 0 else pack (v < 0) (roundMag v.natAbs (2 ^ 1074))

/-- Negation: the sign bit flips. -/
def neg (a : Sample) : Sample := a ^^^ 0x8000000000000000#64

/-- Absolute value: the sign bit clears. -/
def abs (a : Sample) : Sample := a &&& 0x7FFFFFFFFFFFFFFF#64

/-- IEEE subtraction. -/
def sub (a b : Sample) : Sample :=
  if isNaN a || isNaN b then quietNaN 1 a b else add a (neg b)

/-- IEEE multiplication. -/
@[irreducible] def mul (a b : Sample) : Sample :=
  let s := sign a != sign b
  if isNaN a || isNaN b then quietNaN 2 a b
  else if isInf a then (if isZero b then quietNaN 2 a b else pack s infMag)
  else if isInf b then (if isZero a then quietNaN 2 a b else pack s infMag)
  else pack s (roundMag (units a * units b) (2 ^ 2148))

/-- IEEE division. -/
@[irreducible] def div (a b : Sample) : Sample :=
  let s := sign a != sign b
  if isNaN a || isNaN b then quietNaN 3 a b
  else if isInf a then (if isInf b then quietNaN 3 a b else pack s infMag)
  else if isInf b then pack s 0
  else if isZero b then (if isZero a then quietNaN 3 a b else pack s infMag)
  else pack s (roundMag (units a) (units b))

/-- The place of a sample that is no NaN in the order of the values; both zeros are at 0. -/
def rank (x : Sample) : Int :=
  if sign x then -(magBits x : Int) else magBits x

/-- IEEE `<`: false when an operand is a NaN. -/
def lt (a b : Sample) : Bool := !isNaN a && !isNaN b && decide (rank a < rank b)

/-- IEEE `≤`: false when an operand is a NaN. -/
def le (a b : Sample) : Bool := !isNaN a && !isNaN b && decide (rank a ≤ rank b)

/-- The smaller operand; with a NaN operand the result is open (R152, R10). -/
def min (a b : Sample) : Sample :=
  if isNaN a || isNaN b then Config.minMaxOfNaN 0 a b else if lt b a then b else a

/-- The larger operand; with a NaN operand the result is open (R152, R10). -/
def max (a b : Sample) : Sample :=
  if isNaN a || isNaN b then Config.minMaxOfNaN 1 a b else if lt a b then b else a

/-- The binary64 value nearest an integer. -/
def ofInt (i : Int) : Sample := pack (i < 0) (roundMag i.natAbs 1)

/-- The binary64 value nearest the decimal literal `m · 10^(-k)` (R7 (b)). -/
def ofDec (m k : Nat) : Sample := pack false (roundMag m (10 ^ k))

/-- `rnd` (R9): `sign(v)·floor(|v| + 1/2)`, the exact function of the operand. An infinity stays, and a NaN gives a NaN. -/
@[irreducible] def rnd (x : Sample) : Sample :=
  if isNaN x then quietNaN 4 x x
  else if isInf x then x
  else pack (sign x) (roundMag ((2 * units x + 2 ^ 1074) / 2 ^ 1075) 1)

/-- `ck = cos(k·π/16)` from the 20 decimals of R161, each rounded to the nearest binary64 value. -/
def ck (k : Nat) : Sample :=
  match k with
  | 0 => ofInt 1
  | 1 => ofDec 98078528040323044913 20
  | 2 => ofDec 92387953251128675613 20
  | 3 => ofDec 83146961230254523708 20
  | 4 => ofDec 70710678118654752440 20
  | 5 => ofDec 55557023301960222474 20
  | 6 => ofDec 38268343236508977173 20
  | 7 => ofDec 19509032201612826785 20
  | _ => ofInt 0

/-- `NUM = binary64` (R7 (b)). -/
def num : Num Sample where
  add := add
  sub := sub
  mul := mul
  div := div
  neg := neg
  abs := abs
  min := min
  max := max
  lt := lt
  le := le
  ofInt := ofInt
  ofDec := ofDec
  rnd := rnd
  pow2 := fun l => ofInt (2 ^ l)
  log2 := Config.log2
  log10 := Config.log10
  sqrt2 := ofDec 14142135623730951 16
  invSqrt2 := ofDec 70710678118654752440 20
  ck := ck

end Sys2Proof.Machine.Binary64
end

