-- ==== Sys2Proof/Machine/State.lean ====
section
/-! DEFINITION. The machine's state as plain data: everything spec/10_state.md R21 names, the host's actions that are still
to come (R20, R34), and four fields of the model's own for what the spec leaves open. Every field's reset value is R340's
or is named in the assumption log. -/

namespace Sys2Proof.Machine

/-- An 8×8 grid of samples (R22); element (i, j) is at place 8·i + j. -/
abbrev Grid := Vector Sample 64

/-- An image descriptor (R23). -/
structure Desc where
  base : BitVec 32
  w : BitVec 16
  h : BitVec 16
  c : BitVec 8
  deriving DecidableEq, Repr

/-- The fields of `STATUS` (R31); bits 31:8 read 0 and are not held. -/
structure Status where
  /-- Bit 0: a command is executing. -/
  busy : Bool
  /-- Bit 1: a command faulted and the block is halted. -/
  fault : Bool
  /-- Bit 2: the active configuration and the tables are valid. -/
  cfgv : Bool
  /-- Bit 3: the last metric command was given images of unequal shape. -/
  mismatch : Bool
  /-- Bits 7:4: the fault code (R301). -/
  fcode : BitVec 4
  deriving DecidableEq, Repr

/-- Plane memory (R60): the samples written since power-up, addresses strictly rising. One location holds one sample (R62),
so the unit is the sample and not a byte. -/
abbrev Memory := List (Nat × Sample)

/-- What the host can do to the block (R20, R25, R61) and the reset input (R340). -/
inductive HostAction where
  /-- `RegRead(i)`. -/
  | regRead (i : BitVec 8)
  /-- `RegWrite(i, v)`; at index 0x04 it issues a command (R34). -/
  | regWrite (i : BitVec 8) (v : Container)
  /-- `HostMemRead(a)`. -/
  | memRead (a : BitVec 32)
  /-- `HostMemWrite(a, v)`. -/
  | memWrite (a : BitVec 32) (v : Sample)
  /-- The reset input. -/
  | resetInput
  deriving DecidableEq, Repr

/-- What the host's last action got back. -/
inductive Response where
  /-- No action was taken yet. -/
  | idle
  /-- A write or a reset was accepted. -/
  | done
  /-- A read's value. -/
  | value (v : Container)
  /-- The error response: the action is refused and changes nothing (R25, R61). -/
  | refused
  deriving DecidableEq, Repr

/-- The state of the block and of its host. -/
structure State where
  /-- `g0..g7` (R22). -/
  grids : Vector Grid 8
  /-- `GVALID` (R36). -/
  gvalid : BitVec 8
  /-- `d0..d7` (R23). -/
  descs : Vector Desc 8
  /-- `DVALID` (R36). -/
  dvalid : BitVec 8
  /-- `QT[0]`, the luma table (R24). -/
  qtLuma : Grid
  /-- `QT[1]`, the chroma table (R24). -/
  qtChroma : Grid
  /-- `STATUS` (R31). -/
  status : Status
  /-- `FCMD` (R32). -/
  fcmd : Word
  /-- `CMDCNT` (R33). -/
  cmdcnt : BitVec 32
  /-- `CFGSTAGE` (R37). -/
  cfgstage : BitVec 4
  /-- `QUALITY` (R38). -/
  quality : Sample
  /-- `CFG` (R39). -/
  cfg : BitVec 4
  /-- `QACTIVE` (R39). -/
  qactive : Sample
  /-- `SCALE` (R40). -/
  scale : Sample
  /-- `BASESTEP` (R40). -/
  basestep : Sample
  /-- `GAIN` (R41). -/
  gain : Sample
  /-- `LEVELS` (R42). -/
  levels : BitVec 3
  /-- `A0` (R43). -/
  a0 : BitVec 32
  /-- `A1` (R43). -/
  a1 : BitVec 32
  /-- `A2` (R43). -/
  a2 : BitVec 32
  /-- `A3` (R43). -/
  a3 : BitVec 32
  /-- `RES0` (R44). -/
  res0 : Sample
  /-- `RES1` (R44). -/
  res1 : Sample
  /-- Plane memory (R60). -/
  mem : Memory
  /-- The host's actions still to come, next one first (R34: "a program is a finite list of host actions"). -/
  script : List HostAction
  /-- What the host's last action got back (R25, R61). -/
  response : Response
  /-- Model's own: the last plane-memory address, `MEM_SAMPLES − 1` (OPEN parameter, D8). Nothing changes it. -/
  memTop : BitVec 32
  /-- Model's own: how many commands completed since power-up, unbounded; it numbers the free values. -/
  freeCount : Nat
  /-- Model's own: the bits from which zero results take their sign (93_implementation_defined.md: "any value of the two").
  Nothing changes it. -/
  zeroSigns : Nat
  deriving DecidableEq, Repr

/-- The model's faults: a step has no next state. -/
inductive Fault where
  /-- A command would reach plane memory through a valid descriptor that `DSET` cannot have made: its region is not inside
  plane memory, or one of its dimensions is 0. `DSET` refuses such a descriptor (R68, R122), so no run reaches this; raised
  by the commands that reach memory through a descriptor. Safe: a stop where the hardware has no behaviour. -/
  | illegalDescriptor
  deriving DecidableEq, Repr

/-- The model's refusals. -/
inductive Refusal where
  /-- An instruction without a meaning, by its mnemonic; raised only by `exec`'s refused arms. Safe: it stops. -/
  | notModelled (mnemonic : String)
  deriving DecidableEq, Repr

/-- `0.0`. -/
def zeroSample : Sample := 0#64

/-- `5.0`, the reset value of `GAIN` (R41): sign 0, exponent 2, significand 1.25. -/
def fiveSample : Sample := 0x4014000000000000#64

/-- A grid of zeros. -/
def zeroGrid : Grid := Vector.replicate 64 zeroSample

/-- A descriptor with every field 0 (R23). -/
def zeroDesc : Desc := { base := 0, w := 0, h := 0, c := 0 }

/-- The machine after power-up and reset (R48, R340). Grid and table contents are unspecified there and zero here, plane
memory has nothing written, the host has no action to take, and the model's own fields hold the values the log names. -/
def State.reset : State where
  grids := Vector.replicate 8 zeroGrid
  gvalid := 0
  descs := Vector.replicate 8 zeroDesc
  dvalid := 0
  qtLuma := zeroGrid
  qtChroma := zeroGrid
  status := { busy := false, fault := false, cfgv := false, mismatch := false, fcode := 0 }
  fcmd := 0
  cmdcnt := 0
  cfgstage := 0
  quality := zeroSample
  cfg := 0
  qactive := zeroSample
  scale := zeroSample
  basestep := zeroSample
  gain := fiveSample
  levels := 0
  a0 := 0
  a1 := 0
  a2 := 0
  a3 := 0
  res0 := zeroSample
  res1 := zeroSample
  mem := []
  script := []
  response := .idle
  memTop := 0xFFFFFFFF
  freeCount := 0
  zeroSigns := 0

end Sys2Proof.Machine
end

