-- ==== Sys2Proof/Machine/Flags.lean ====
section
/-! DEFINITION. `STATUS`, the valid bits and the fault codes (spec/10_state.md R31, R36; spec/60_exceptions.md R301). -/

namespace Sys2Proof.Machine

/-- The synchronous faults (R301). -/
inductive FaultCode where
  | illegalCmd
  | uninit
  | badConfig
  | badDims
  | bounds
  | badArg
  | shape
  | aliasing
  | noWindow
  deriving DecidableEq, Repr

/-- `code(F)` (R301). -/
def FaultCode.code (f : FaultCode) : BitVec 4 :=
  match f with
  | .illegalCmd => 1#4
  | .uninit => 2#4
  | .badConfig => 3#4
  | .badDims => 4#4
  | .bounds => 5#4
  | .badArg => 6#4
  | .shape => 7#4
  | .aliasing => 8#4
  | .noWindow => 9#4

/-- `STATUS` as the host reads it (R31): BUSY, FAULT, CFGV, MISMATCH in bits 0 to 3, FCODE in bits 7:4, zeros above. -/
def Status.word (st : Status) : BitVec 32 :=
  0#24 ++ st.fcode ++ BitVec.ofBool st.mismatch ++ BitVec.ofBool st.cfgv ++ BitVec.ofBool st.fault
    ++ BitVec.ofBool st.busy

/-- `GVALID[n]` (R36). -/
def State.gridValid (s : State) (n : RegNum) : Bool := s.gvalid.getLsbD n.val

/-- `DVALID[n]` (R36). -/
def State.descValid (s : State) (n : RegNum) : Bool := s.dvalid.getLsbD n.val

/-- A valid-bit register with bit n set (R36: "set by any command that writes the whole register"). -/
def setValid (v : BitVec 8) (n : RegNum) : BitVec 8 := v ||| 1#8 <<< n.val

/-- `STATUS.MISMATCH <- b` (R31, R261). -/
def State.setMismatch (s : State) (b : Bool) : State :=
  { s with status := { s.status with mismatch := b } }

/-- `CFGSTAGE` and `CFG` share a layout (R37, R39): QEN is bit 0. -/
def cfgQen (v : BitVec 4) : Bool := v.getLsbD 0

/-- CHROMA is bits 2:1. -/
def cfgChroma (v : BitVec 4) : BitVec 2 := v.extractLsb' 1 2

/-- XFORM is bit 3: 0 block-DCT, 1 full-image Haar-DWT. -/
def cfgXform (v : BitVec 4) : Bool := v.getLsbD 3

end Sys2Proof.Machine
end

