-- ==== Sys2Proof/Machine/Plane.lean ====
section
/-! DEFINITION. Grids and working planes over any sample type: element access, building from a formula, and the working copy
`W` of the plane commands (spec/00_scope.md R13; spec/43_haar.md R182; spec/46_pipeline.md R242). -/

namespace Sys2Proof.Machine

/-- An 8×8 grid over `S`; `GridOf Sample` is the grid of `State`. -/
abbrev GridOf (S : Type) := Vector S 64

/-- `g[i][j]`: row i, column j, both in 0..7 (R13). -/
def gridAt {S : Type} (g : GridOf S) (i j : Nat) : S :=
  g[8 * (i % 8) + j % 8]'(by omega)

/-- The grid whose element (i, j) is `f i j`. -/
def gridOf {S : Type} (f : Nat → Nat → S) : GridOf S :=
  Vector.ofFn fun k : Fin 64 => f (k.val / 8) (k.val % 8)

/-- The elements of a grid in row-major order. -/
def gridSamples {S : Type} (g : GridOf S) : List S := g.toList

/-- The positions (row, column) of an h×w array in row-major order. -/
def rowMajor (h w : Nat) : List (Nat × Nat) :=
  (List.range h).flatMap fun r => (List.range w).map fun c => (r, c)

/-- A working copy of a plane: the sample at row, column. -/
structure Plane (S : Type) where
  get : Nat → Nat → S

/-- The same plane with its h×w samples tabulated, so that later readings do not evaluate it again. -/
def Plane.tabulate {S : Type} (h w : Nat) (W : Plane S) : Plane S :=
  let t : Vector S (h * w) := Vector.ofFn fun k => W.get (k.val / w) (k.val % w)
  ⟨fun r c => if hb : r < h ∧ c < w then t[r * w + c]'(by
      have : (r + 1) * w ≤ h * w := Nat.mul_le_mul_right w hb.1
      rw [Nat.succ_mul] at this
      omega) else W.get r c⟩

/-- A grid as a working plane. -/
def planeOfGrid {S : Type} (g : GridOf S) : Plane S := ⟨gridAt g⟩

/-- The top-left 8×8 of a working plane as a grid. -/
def gridOfPlane {S : Type} (W : Plane S) : GridOf S := gridOf W.get

/-- The 8×8 block of a working plane whose top-left sample is at (row, col). -/
def blockAt {S : Type} (W : Plane S) (row col : Nat) : GridOf S :=
  gridOf fun i j => W.get (row + i) (col + j)

end Sys2Proof.Machine
end

