-- ==== Sys2Proof/Machine/Ops.lean ====
section
/-! DEFINITION. The operations every command is made of: plane memory, register files, raising a fault, the command frame,
reset, and the free values of a command's outputs. -/

namespace Sys2Proof.Machine

/-- The three outcomes of a command or of a step. -/
abbrev Result := Host.Outcome State Fault Refusal

/-! ## Plane memory (spec/20_memory.md R60 to R65) -/

/-- The sample written at an address since power-up, if any. -/
def Memory.find? (m : Memory) (a : Nat) : Option Sample :=
  match m with
  | [] => none
  | (b, v) :: rest => if a = b then some v else Memory.find? rest a

/-- The memory with sample v stored at address a; addresses stay strictly rising. -/
def Memory.insert (m : Memory) (a : Nat) (v : Sample) : Memory :=
  match m with
  | [] => [(a, v)]
  | (b, u) :: rest =>
    if a < b then (a, v) :: (b, u) :: rest
    else if a = b then (a, v) :: rest
    else (b, u) :: Memory.insert rest a v

/-- The canonical form of a memory: addresses strictly rising. What an unlisted address reads as is no value of the list
(`memRead`), so no entry can repeat it. -/
def Memory.wf (m : Memory) : Bool :=
  match m with
  | [] => true
  | (a, _) :: rest => rest.all (fun cell => a < cell.1) && Memory.wf rest

/-- What an address that nothing has written since power-up reads as: an open value (R48, R341). -/
def unwritten (a : Nat) : Sample := Config.powerUp a

/-- `MemRead(a, 1)` (R62). -/
def State.memRead (s : State) (a : Nat) : Sample := (s.mem.find? a).getD (unwritten a)

/-- `MemWrite(a, 1, v)` (R62). -/
def State.memWrite (s : State) (a : Nat) (v : Sample) : State := { s with mem := s.mem.insert a v }

/-- A sequence of single-sample writes, in order (R62, R70). -/
def Memory.insertAll (m : Memory) (ws : List (Nat × Sample)) : Memory :=
  match ws with
  | [] => m
  | (a, v) :: rest => Memory.insertAll (m.insert a v) rest

/-- The state after a sequence of `MemWrite`s. -/
def State.memWriteAll (s : State) (ws : List (Nat × Sample)) : State := { s with mem := s.mem.insertAll ws }

/-- `MEM_SAMPLES` (R5, D8): from 1 to 2^32. -/
def State.memSamples (s : State) : Nat := s.memTop.toNat + 1

/-! ## Register files (spec/10_state.md R22 to R24) -/

/-- The contents of grid register n; a command that reads it has checked its valid bit. -/
def State.grid (s : State) (n : RegNum) : Grid := s.grids[n]

/-- `g[n] <- G`: all 64 elements and the valid bit (R13). -/
def State.setGrid (s : State) (n : RegNum) (g : Grid) : State :=
  { s with grids := s.grids.set n g, gvalid := setValid s.gvalid n }

/-- The record in descriptor n; a command that reads it has checked its valid bit. -/
def State.desc (s : State) (n : RegNum) : Desc := s.descs[n]

/-- `d[n] <- D` and its valid bit (R122). -/
def State.setDesc (s : State) (n : RegNum) (d : Desc) : State :=
  { s with descs := s.descs.set n d, dvalid := setValid s.dvalid n }

/-- `QT[t]` (R13, R24). -/
def State.table (s : State) (t : TableSel) : Grid :=
  match t with
  | .luma => s.qtLuma
  | .chroma => s.qtChroma

/-- `CSR.LEVELS <- L` (R42). -/
def State.setLevels (s : State) (l : Nat) : State := { s with levels := BitVec.ofNat 3 l }

/-- `CSR.RES0 <- x` (R44). -/
def State.setRes0 (s : State) (x : Sample) : State := { s with res0 := x }

/-- `CSR.RES0 <- x; CSR.RES1 <- y` (R44). -/
def State.setResults (s : State) (x y : Sample) : State := { s with res0 := x, res1 := y }

/-! ## Faults and the command frame (spec/60_exceptions.md R305; spec/40_system_and_movement.md R121) -/

/-- `raise F` during the command word w (R305): the fault fields are written, BUSY clears, nothing else changes. -/
def State.raise (s : State) (w : Word) (f : FaultCode) : State :=
  { s with
    status := { s.status with fault := true, fcode := f.code, busy := false }
    fcmd := w }

/-- The frame's first effect: `STATUS.BUSY <- 1` (R121). -/
def State.begin (s : State) : State := { s with status := { s.status with busy := true } }

/-- The frame's last effects: `CMDCNT <- (CMDCNT + 1) mod 2^32; STATUS.BUSY <- 0` (R121), and the model's own count of
completed commands. -/
def State.complete (s : State) : State :=
  { s with
    cmdcnt := s.cmdcnt + 1
    status := { s.status with busy := false }
    freeCount := s.freeCount + 1 }

/-- A command's checks: each is a failing condition and the fault it raises. -/
abbrev Checks := List (Bool × FaultCode)

/-- The first failing check decides the fault (R14, R310). -/
def firstFault (checks : Checks) : Option FaultCode :=
  match checks with
  | [] => none
  | (failing, f) :: rest => if failing then some f else firstFault rest

/-- Run a command (R121): its checks in order, then its effects. Checks never write. -/
def run (cmd : Instr) (s : State) (checks : Checks) (effects : Result) : Result :=
  match firstFault checks with
  | some f => .next (s.raise (encode cmd) f)
  | none => effects

/-- The command completes in state s (R121). -/
def completes (s : State) : Result := .next s.complete

/-! ## Reset (spec/70_reset_and_hazards.md R340) -/

/-- The reset input and `SRST <- 1` (R340, R35): every register as after reset, plane memory untouched. The host's own
actions and the model's own fields are no registers of the block and stay. -/
def State.doReset (s : State) : State :=
  { State.reset with
    mem := s.mem
    script := s.script
    response := s.response
    memTop := s.memTop
    freeCount := s.freeCount
    zeroSigns := s.zeroSigns }

/-! ## Free values of a command's outputs -/

/-- Every input sample of a command is finite (R10). -/
def allFinite (inputs : List Sample) : Bool := inputs.all Binary64.isFinite

/-- An output that a command moves (it is some input sample or a constant): v, or any value when an input of the command is
not finite (R10). `place` tells the outputs of one command apart. -/
def State.moved (s : State) (finite : Bool) (place : Nat) (v : Sample) : Sample :=
  if finite then v else Config.anySample s.freeCount place

/-- An output with the sign of a zero left open (R9 and 93_implementation_defined.md section 2: `any value` of the two):
the sign bit is one of the bits of `zeroSigns`, a different one for each output of each command (a command has fewer than
2^40 outputs, R11). -/
def State.freeZero (s : State) (place : Nat) (v : Sample) : Sample :=
  if Binary64.isZero v then Binary64.pack (s.zeroSigns.testBit (s.freeCount * 2 ^ 40 + place)) 0 else v

/-- An output that a command computes: v up to the sign of a zero (R9), or any value when an input is not finite (R10). -/
def State.computed (s : State) (finite : Bool) (place : Nat) (v : Sample) : Sample :=
  s.moved finite place (s.freeZero place v)

/-- A moved grid, its outputs numbered from `64·nth`. -/
def State.movedGrid (s : State) (finite : Bool) (nth : Nat) (g : Grid) : Grid :=
  gridOf fun i j => s.moved finite (64 * nth + 8 * i + j) (gridAt g i j)

/-- A computed grid, its outputs numbered from `64·nth`. -/
def State.computedGrid (s : State) (finite : Bool) (nth : Nat) (g : Grid) : Grid :=
  gridOf fun i j => s.computed finite (64 * nth + 8 * i + j) (gridAt g i j)

end Sys2Proof.Machine
end

