-- ==== Sys2Proof/Machine/Operands.lean ====
section
/-! DEFINITION. The operand forms of the commands: images named by descriptors, blocks of an image, the shape, alias and
validity checks (spec/20_memory.md R67 to R69; spec/30_encoding.md R93; spec/45_chroma.md R230). -/

namespace Sys2Proof.Machine

/-! ## Images (R67) -/

/-- The number of samples `w·h·c`. -/
def Desc.samples (d : Desc) : Nat := d.w.toNat * d.h.toNat * d.c.toNat

/-- `idx(D, row, col, ch) = D.base + (row·D.w + col)·D.c + ch`. -/
def Desc.idx (d : Desc) (row col ch : Nat) : Nat := d.base.toNat + (row * d.w.toNat + col) * d.c.toNat + ch

/-- The end of `region(D)`: `D.base + D.w·D.h·D.c`. -/
def Desc.limit (d : Desc) : Nat := d.base.toNat + d.samples

/-- The intersection test of R69. -/
def Desc.meets (a b : Desc) : Bool := decide (a.base.toNat < b.limit) && decide (b.base.toNat < a.limit)

/-- Equal widths and heights. -/
def Desc.sameSize (a b : Desc) : Bool := a.w == b.w && a.h == b.h

/-- Two images match when their widths, heights and channel counts are equal (R261). -/
def Desc.sameShape (a b : Desc) : Bool := a.w == b.w && a.h == b.h && a.c == b.c

/-- The invariant of a valid descriptor (R23): positive dimensions, and a region inside plane memory. -/
def Desc.legal (memSamples : Nat) (d : Desc) : Bool :=
  decide (0 < d.w.toNat) && decide (0 < d.h.toNat) && decide (0 < d.c.toNat) && decide (d.limit ≤ memSamples)

/-- `P(D)[row][col][ch]` (R13). -/
def State.pixel (s : State) (d : Desc) (row col ch : Nat) : Sample := s.memRead (d.idx row col ch)

/-- The samples of an image in address order. -/
def State.imageSamples (s : State) (d : Desc) : List Sample :=
  (List.range d.samples).map fun k => s.memRead (d.base.toNat + k)

/-- The samples of one channel of an image in row-major order. -/
def State.channelSamples (s : State) (d : Desc) (ch : Nat) : List Sample :=
  (rowMajor d.h.toNat d.w.toNat).map fun p => s.pixel d p.1 p.2 ch

/-- The working copy of a plane. -/
def State.plane (s : State) (d : Desc) : Plane Sample := ⟨fun row col => s.pixel d row col 0⟩

/-- Reach plane memory through descriptors: each is one that `DSET` can have made (R23, R68); no run reaches
the fault. -/
def reaching (s : State) (images : List Desc) (effects : Result) : Result :=
  if images.all (Desc.legal s.memSamples) then effects else .fault .illegalDescriptor

/-- The state after writing `v row col` to channel ch of image d at every position. -/
def State.writeChannel (s : State) (d : Desc) (ch : Nat) (v : Nat → Nat → Sample) : State :=
  s.memWriteAll ((rowMajor d.h.toNat d.w.toNat).map fun p => (d.idx p.1 p.2 ch, v p.1 p.2))

/-- The state after writing the three channels of every pixel, pixel by pixel. -/
def State.writePixels (s : State) (d : Desc) (v : Nat → Nat → Nat → Sample) : State :=
  s.memWriteAll ((rowMajor d.h.toNat d.w.toNat).flatMap fun p =>
    [(d.idx p.1 p.2 0, v p.1 p.2 0), (d.idx p.1 p.2 1, v p.1 p.2 1), (d.idx p.1 p.2 2, v p.1 p.2 2)])

/-- The state after writing `v k` to the k-th sample of image d, in address order. -/
def State.writeImage (s : State) (d : Desc) (v : Nat → Sample) : State :=
  s.memWriteAll ((List.range d.samples).map fun k => (d.base.toNat + k, v k))

/-! ## Validity checks (R121, R97) -/

/-- `GVALID[n] = 0` → `UNINIT`. -/
def needGrid (s : State) (n : RegNum) : Bool × FaultCode := (!s.gridValid n, .uninit)

/-- `DVALID[n] = 0` → `UNINIT`. -/
def needDesc (s : State) (n : RegNum) : Bool × FaultCode := (!s.descValid n, .uninit)

/-- `STATUS.CFGV = 0` → `UNINIT`. -/
def needConfig (s : State) : Bool × FaultCode := (!s.status.cfgv, .uninit)

/-- A condition that must hold, else `SHAPE`. -/
def needShape (ok : Bool) : Bool × FaultCode := (!ok, .shape)

/-- The channel number `A2` is below the image's channel count, else `BAD_ARG`. -/
def needChannel (s : State) (d : Desc) : Bool × FaultCode := (decide (d.c.toNat ≤ s.a2.toNat), .badArg)

/-- The origin of block (`A0`, `A1`) lies inside the image, else `BAD_ARG` (R123). -/
def needBlock (s : State) (d : Desc) : Bool × FaultCode :=
  (decide (d.w.toNat ≤ 8 * s.a0.toNat) || decide (d.h.toNat ≤ 8 * s.a1.toNat), .badArg)

/-- The destination's region is disjoint from the source's, else `ALIAS` (R69). -/
def needApart (dst src : Desc) : Bool × FaultCode := (dst.meets src, .aliasing)

/-- Both images are planes (one channel) of the same size (R182, R214, R242). -/
def planesMatch (dst src : Desc) : Bool := src.c == 1 && dst.c == 1 && dst.sameSize src

/-! ## Blocks of an image (R123, R124) -/

/-- Position (i, j) of block (bx, by) lies inside the image. -/
def blockInside (d : Desc) (bx by' i j : Nat) : Bool :=
  decide (8 * by' + i < d.h.toNat) && decide (8 * bx + j < d.w.toNat)

/-- Block (bx, by) of channel ch, zero-padded past the image's edge (R123). -/
def State.loadBlock (s : State) (d : Desc) (bx by' ch : Nat) : Grid :=
  gridOf fun i j => if blockInside d bx by' i j then s.pixel d (8 * by' + i) (8 * bx + j) ch else zeroSample

/-- The samples `loadBlock` reads. -/
def State.blockSamples (s : State) (d : Desc) (bx by' ch : Nat) : List Sample :=
  ((rowMajor 8 8).filter fun p => blockInside d bx by' p.1 p.2).map fun p =>
    s.pixel d (8 * by' + p.1) (8 * bx + p.2) ch

/-- The writes of a block, clipped at the image's edge (R124). -/
def blockWrites (d : Desc) (bx by' ch : Nat) (g : Grid) : List (Nat × Sample) :=
  ((rowMajor 8 8).filter fun p => blockInside d bx by' p.1 p.2).map fun p =>
    (d.idx (8 * by' + p.1) (8 * bx + p.2) ch, gridAt g p.1 p.2)

/-! ## Chroma modes (R230, R231) -/

/-- `sx`, the factor of the width: 1 in mode 0, 2 in modes 1 and 2. -/
def modeSx (m : BitVec 2) : Nat := if m = 0 then 1 else 2

/-- `sy`, the factor of the height: 2 in mode 2, else 1. -/
def modeSy (m : BitVec 2) : Nat := if m = 2 then 2 else 1

/-- `cdiv(a, b) = (a + b − 1) div b` (R11). -/
def cdiv (a b : Nat) : Nat := (a + b - 1) / b

/-- Image `small` has the downsampled shape of image `large` (R231), both planes. -/
def chromaShapes (large small : Desc) (m : BitVec 2) : Bool :=
  large.c == 1 && small.c == 1 && small.w.toNat == cdiv large.w.toNat (modeSx m)
    && small.h.toNat == cdiv large.h.toNat (modeSy m)

end Sys2Proof.Machine
end

