-- ==== Sys2Proof/Machine/Chroma.lean ====
section
/-! DEFINITION. The chroma resampler (spec/45_chroma.md): CDOWN, CUP. -/

namespace Sys2Proof.Machine

/-- The samples of the neighbourhood of output (y, x) that exist in a w×h plane, in the order of R232's loops. -/
def neighbourhood {S : Type} (W : Plane S) (w h : Nat) (m : BitVec 2) (y x : Nat) : List S :=
  ((rowMajor (modeSy m) (modeSx m)).filter fun p =>
      decide (y * modeSy m + p.1 < h) && decide (x * modeSx m + p.2 < w)).map fun p =>
    W.get (y * modeSy m + p.1) (x * modeSx m + p.2)

/-- The average of a neighbourhood over the samples that exist (R232). -/
def average {S : Type} (N : Num S) (vs : List S) : S := N.div (N.sum vs) (N.ofInt vs.length)

/-- A chroma command in mode m: the reserved mode is a decode fault (R92 step 3), so no command word reaches it. -/
def chromaRun (cmd : Instr) (m : BitVec 2) (s : State) (checks : Checks) (effects : Result) : Result :=
  run cmd s ((!modeLegal m, .illegalCmd) :: checks) effects

/-- `CDOWN dd, ds, mode` (R232). -/
def execCdown (dd ds : RegNum) (m : BitVec 2) (s : State) : Result :=
  let Dd := s.desc dd
  let Ds := s.desc ds
  chromaRun (.cdown dd ds m) m s [needDesc s dd, needDesc s ds, needShape (chromaShapes Ds Dd m), needApart Dd Ds] <|
    reaching s [Dd, Ds] <|
      let finite := allFinite (s.channelSamples Ds 0)
      completes (s.writeChannel Dd 0 fun y x =>
        s.computed finite (Dd.idx y x 0)
          (average Binary64.num (neighbourhood (s.plane Ds) Ds.w.toNat Ds.h.toNat m y x)))

/-- `CUP dd, ds, mode` (R233). -/
def execCup (dd ds : RegNum) (m : BitVec 2) (s : State) : Result :=
  let Dd := s.desc dd
  let Ds := s.desc ds
  chromaRun (.cup dd ds m) m s [needDesc s dd, needDesc s ds, needShape (chromaShapes Dd Ds m), needApart Dd Ds] <|
    reaching s [Dd, Ds] <|
      let finite := allFinite (s.channelSamples Ds 0)
      completes (s.writeChannel Dd 0 fun y x =>
        s.moved finite (Dd.idx y x 0) (s.pixel Ds (y / modeSy m) (x / modeSx m) 0))

end Sys2Proof.Machine
end

