-- ==== Sys2Proof/Machine/Color.lean ====
section
/-! DEFINITION. The colour-space converter (spec/41_color.md): CSC.F, CSC.I. Channels 0, 1, 2 are B, G, R on the linear
side and Y, Cr, Cb on the other (R150). -/

namespace Sys2Proof.Machine

/-- Y, Cr, Cb of one pixel (R151), not clamped. -/
def toLumaChroma {S : Type} (N : Num S) (b g r : S) : S × S × S :=
  let y := N.add (N.add (N.mul (N.ofDec 299 3) r) (N.mul (N.ofDec 587 3) g)) (N.mul (N.ofDec 114 3) b)
  let cr := N.add (N.mul (N.sub r y) (N.ofDec 713 3)) (N.ofInt 128)
  let cb := N.add (N.mul (N.sub b y) (N.ofDec 564 3)) (N.ofInt 128)
  (y, cr, cb)

/-- `clamp(v) = min(255, max(0, v))` (R152). -/
def clampSample {S : Type} (N : Num S) (v : S) : S := N.min (N.ofInt 255) (N.max (N.ofInt 0) v)

/-- B, G, R of one pixel before the clamp (R152). -/
def toLinear {S : Type} (N : Num S) (y cr cb : S) : S × S × S :=
  let r := N.add y (N.mul (N.ofDec 1402 3) (N.sub cr (N.ofInt 128)))
  let g := N.sub (N.sub y (N.mul (N.ofDec 344136 6) (N.sub cb (N.ofInt 128))))
    (N.mul (N.ofDec 714136 6) (N.sub cr (N.ofInt 128)))
  let b := N.add y (N.mul (N.ofDec 1772 3) (N.sub cb (N.ofInt 128)))
  (b, g, r)

/-- B, G, R of one pixel, clamped to [0, 255] (R152). -/
def toLinearClamped {S : Type} (N : Num S) (y cr cb : S) : S × S × S :=
  let p := toLinear N y cr cb
  (clampSample N p.1, clampSample N p.2.1, clampSample N p.2.2)

/-- Component ch of a three-channel pixel. -/
def component {S : Type} (p : S × S × S) (ch : Nat) : S :=
  match ch with
  | 0 => p.1
  | 1 => p.2.1
  | _ => p.2.2

/-- Checks 1 to 4 of R151 and R152. -/
def cscChecks (s : State) (dd ds : RegNum) : Checks :=
  let Dd := s.desc dd
  let Ds := s.desc ds
  [needDesc s dd, needDesc s ds, needShape (Ds.c == 3 && Dd.c == 3 && Dd.sameSize Ds), needApart Dd Ds]

/-- The effects both converters share: every pixel of the source through `f`, into the destination. -/
def cscEffects (s : State) (dd ds : RegNum) (f : Sample → Sample → Sample → Sample × Sample × Sample) : Result :=
  let Dd := s.desc dd
  let Ds := s.desc ds
  reaching s [Dd, Ds] <|
    let finite := allFinite (s.imageSamples Ds)
    completes (s.writePixels Dd fun row col ch =>
      s.computed finite (Dd.idx row col ch)
        (component (f (s.pixel Ds row col 0) (s.pixel Ds row col 1) (s.pixel Ds row col 2)) ch))

/-- `CSC.F dd, ds` (R151). -/
def execCscF (dd ds : RegNum) (s : State) : Result :=
  run (.cscF dd ds) s (cscChecks s dd ds) (cscEffects s dd ds (toLumaChroma Binary64.num))

/-- `CSC.I dd, ds` (R152). -/
def execCscI (dd ds : RegNum) (s : State) : Result :=
  run (.cscI dd ds) s (cscChecks s dd ds) (cscEffects s dd ds (toLinearClamped Binary64.num))

end Sys2Proof.Machine
end

