-- ==== Sys2Proof/Machine/Fidelity.lean ====
section
/-! DEFINITION. The difference metric accumulator (spec/47_fidelity.md): PSNR, SSIM, ARTMAP. -/

namespace Sys2Proof.Machine

/-! ## PSNR (R262) -/

/-- The mean of the squared differences of two lists of samples. -/
def meanSquare {S : Type} (N : Num S) (xs ys : List S) : S :=
  N.div (N.sum (List.zipWith (fun a b => N.mul (N.sub a b) (N.sub a b)) xs ys)) (N.ofInt xs.length)

/-- `if mse ≤ 1e-10 then 100.0 else 10·log10(65025 / mse)`. -/
def psnrOf {S : Type} (N : Num S) (mse : S) : S :=
  if N.le mse (N.ofDec 1 10) then N.ofInt 100 else N.mul (N.ofInt 10) (N.log10 (N.div (N.ofInt 65025) mse))

/-- The soft result of `PSNR` and `SSIM` on images that do not match (R261). -/
def State.softResult (s : State) : State := (s.setResults zeroSample zeroSample).setMismatch true

/-- `PSNR da, db` (R262). -/
def execPsnr (da db : RegNum) (s : State) : Result :=
  let A := s.desc da
  let B := s.desc db
  run (.psnr da db) s [needDesc s da, needDesc s db] <|
    if A.sameShape B then
      reaching s [A, B] <|
        let xs := s.imageSamples A
        let ys := s.imageSamples B
        let finite := allFinite (xs ++ ys)
        let mse := meanSquare Binary64.num xs ys
        completes ((s.setResults (s.computed finite 0 (psnrOf Binary64.num mse)) (s.computed finite 1 mse)).setMismatch
          false)
    else completes s.softResult

/-! ## SSIM (R263, R264, R266) -/

/-- `C1` and `C2` (R264). -/
def ssimC1 {S : Type} (N : Num S) : S := N.ofDec 65025 4

/-- See `ssimC1`. -/
def ssimC2 {S : Type} (N : Num S) : S := N.ofDec 585225 4

/-- The index of one window of 64 sample pairs (R264). -/
def ssimIndex {S : Type} (N : Num S) (as bs : List S) : S :=
  let mean (v : S) : S := N.div v (N.ofInt 64)
  let sa := N.sum as
  let sb := N.sum bs
  let saa := N.sum (as.map fun a => N.mul a a)
  let sbb := N.sum (bs.map fun b => N.mul b b)
  let sab := N.sum (List.zipWith N.mul as bs)
  let ma := mean sa
  let mb := mean sb
  let va := N.sub (mean saa) (N.mul ma ma)
  let vb := N.sub (mean sbb) (N.mul mb mb)
  let cab := N.sub (mean sab) (N.mul ma mb)
  N.div
    (N.mul (N.add (N.mul (N.mul (N.ofInt 2) ma) mb) (ssimC1 N)) (N.add (N.mul (N.ofInt 2) cab) (ssimC2 N)))
    (N.mul (N.add (N.add (N.mul ma ma) (N.mul mb mb)) (ssimC1 N)) (N.add (N.add va vb) (ssimC2 N)))

/-- How many windows of side 8 and stride 4 lie inside a side of d samples (R263). -/
def windowCount (d : Nat) : Nat := if d < 8 then 0 else (d - 8) / 4 + 1

/-- The origins (y0, x0) of the windows, in the order of R266. -/
def windowOrigins (w h : Nat) : List (Nat × Nat) :=
  (rowMajor (windowCount h) (windowCount w)).map fun p => (4 * p.1, 4 * p.2)

/-- The 64 samples of the window at (y0, x0) in row-major order. -/
def windowAt {S : Type} (W : Plane S) (y0 x0 : Nat) : List S :=
  (rowMajor 8 8).map fun p => W.get (y0 + p.1) (x0 + p.2)

/-- The samples the windows of a w×h plane cover. -/
def windowSamples {S : Type} (W : Plane S) (w h : Nat) : List S :=
  (rowMajor (4 * windowCount h + 4) (4 * windowCount w + 4)).map fun p => W.get p.1 p.2

/-- The sum of the window indices and its mean over the windows (R266). -/
def meanSsim {S : Type} (N : Num S) (A B : Plane S) (w h : Nat) : S :=
  let origins := windowOrigins w h
  N.div (N.sum (origins.map fun o => ssimIndex N (windowAt A o.1 o.2) (windowAt B o.1 o.2))) (N.ofInt origins.length)

/-- `SSIM da, db` (R266). The shape and window checks apply only to matching images. -/
def execSsim (da db : RegNum) (s : State) : Result :=
  let A := s.desc da
  let B := s.desc db
  let w := A.w.toNat
  let h := A.h.toNat
  let match' := A.sameShape B
  run (.ssim da db) s
      [needDesc s da, needDesc s db, (match' && A.c != 1, .shape),
        (match' && (decide (w < 8) || decide (h < 8)), .noWindow)] <|
    if match' then
      reaching s [A, B] <|
        let WA := (s.plane A).tabulate h w
        let WB := (s.plane B).tabulate h w
        let finite := allFinite (windowSamples WA w h ++ windowSamples WB w h)
        completes ((s.setResults (s.computed finite 0 (meanSsim Binary64.num WA WB w h))
          (s.computed finite 1 (Binary64.ofInt (windowOrigins w h).length))).setMismatch false)
    else completes s.softResult

/-! ## ARTMAP (R270) -/

/-- `min(255, |a − b|·gain)`. -/
def artifactSample {S : Type} (N : Num S) (gain a b : S) : S := N.min (N.ofInt 255) (N.mul (N.abs (N.sub a b)) gain)

/-- `ARTMAP dd, da, db` (R270). -/
def execArtmap (dd da db : RegNum) (s : State) : Result :=
  let Dd := s.desc dd
  let A := s.desc da
  let B := s.desc db
  run (.artmap dd da db) s
      [needDesc s dd, needDesc s da, needDesc s db, needShape (Dd.sameShape A),
        (Dd.meets A || Dd.meets B, .aliasing)] <|
    if A.sameShape B then
      reaching s [Dd, A, B] <|
        let finite := allFinite (s.gain :: (s.imageSamples A ++ s.imageSamples B))
        completes ((s.writeImage Dd fun k =>
          s.computed finite (Dd.base.toNat + k)
            (artifactSample Binary64.num s.gain (s.memRead (A.base.toNat + k)) (s.memRead (B.base.toNat + k)))).setMismatch
              false)
    else completes (s.setMismatch true)

end Sys2Proof.Machine
end

