-- ==== Sys2Proof/Machine/Dct.lean ====
section
/-! DEFINITION. The 8×8 DCT-II and its inverse (spec/42_dct.md): DCT.F, DCT.I. The loops are R162's and R163's, in their
order and association. -/

namespace Sys2Proof.Machine

/-- The table of R161: row x, column u holds the sign and the k of `COS[x][u] = ±ck`; `true` is minus. -/
def cosTable : List (List (Bool × Nat)) :=
  [[(false, 0), (false, 1), (false, 2), (false, 3), (false, 4), (false, 5), (false, 6), (false, 7)],
   [(false, 0), (false, 3), (false, 6), (true, 7), (true, 4), (true, 1), (true, 2), (true, 5)],
   [(false, 0), (false, 5), (true, 6), (true, 1), (true, 4), (false, 7), (false, 2), (false, 3)],
   [(false, 0), (false, 7), (true, 2), (true, 5), (false, 4), (false, 3), (true, 6), (true, 1)],
   [(false, 0), (true, 7), (true, 2), (false, 5), (false, 4), (true, 3), (true, 6), (false, 1)],
   [(false, 0), (true, 5), (true, 6), (false, 1), (true, 4), (true, 7), (false, 2), (true, 3)],
   [(false, 0), (true, 3), (false, 6), (false, 7), (true, 4), (false, 1), (true, 2), (false, 5)],
   [(false, 0), (true, 1), (false, 2), (true, 3), (false, 4), (true, 5), (false, 6), (true, 7)]]

/-- `COS[x][u]` (R161). -/
def cosAt {S : Type} (N : Num S) (x u : Nat) : S :=
  let e := (cosTable.getD x []).getD u (false, 0)
  if e.1 then N.neg (N.ck e.2) else N.ck e.2

/-- `C(0) = 1/√2`, `C(k) = 1` otherwise (R160). -/
def dctC {S : Type} (N : Num S) (k : Nat) : S := if k = 0 then N.invSqrt2 else N.ofInt 1

/-- `F(u, v)` of R162. -/
def dctForwardAt {S : Type} (N : Num S) (f : GridOf S) (u v : Nat) : S :=
  let s := N.sum ((rowMajor 8 8).map fun p =>
    N.mul (N.mul (gridAt f p.1 p.2) (cosAt N p.1 u)) (cosAt N p.2 v))
  N.mul (N.mul (N.mul (N.ofDec 25 2) (dctC N u)) (dctC N v)) s

/-- `dctF` (R162). -/
def dctForward {S : Type} (N : Num S) (f : GridOf S) : GridOf S := gridOf (dctForwardAt N f)

/-- `f(x, y)` of R163. -/
def dctInverseAt {S : Type} (N : Num S) (F : GridOf S) (x y : Nat) : S :=
  let s := N.sum ((rowMajor 8 8).map fun p =>
    N.mul (N.mul (N.mul (N.mul (dctC N p.1) (dctC N p.2)) (gridAt F p.1 p.2)) (cosAt N x p.1)) (cosAt N y p.2))
  N.mul (N.ofDec 25 2) s

/-- `dctI` (R163). -/
def dctInverse {S : Type} (N : Num S) (F : GridOf S) : GridOf S := gridOf (dctInverseAt N F)

/-- A command from one grid to another: the source valid, read whole, the result written (R162, R163, R174, R175). -/
def gridTransform (cmd : Instr) (gd gs : RegNum) (f : Grid → Grid) (s : State) : Result :=
  run cmd s [needGrid s gs] <|
    completes (s.setGrid gd (s.computedGrid (allFinite (gridSamples (s.grid gs))) 0 (f (s.grid gs))))

/-- `DCT.F gd, gs` (R162). -/
def execDctF (gd gs : RegNum) (s : State) : Result :=
  gridTransform (.dctF gd gs) gd gs (dctForward Binary64.num) s

/-- `DCT.I gd, gs` (R163). -/
def execDctI (gd gs : RegNum) (s : State) : Result :=
  gridTransform (.dctI gd gs) gd gs (dctInverse Binary64.num) s

end Sys2Proof.Machine
end

