-- ==== Sys2Proof/Machine/Haar.lean ====
section
/-! DEFINITION. The Haar wavelet (spec/43_haar.md): HAAR8.F, HAAR8.I, DWT.LEV, DWT.F, DWT.I. -/

namespace Sys2Proof.Machine

/-! ## The one-dimensional pair (R170, R171) -/

/-- Element k of the forward transform of a line x of length n: averages in the first half, details in the second. -/
def haarLineForward {S : Type} (N : Num S) (n : Nat) (x : Nat → S) (k : Nat) : S :=
  let m := n / 2
  if k < m then N.div (N.add (x (2 * k)) (x (2 * k + 1))) N.sqrt2
  else N.div (N.sub (x (2 * (k - m))) (x (2 * (k - m) + 1))) N.sqrt2

/-- Element k of the inverse transform of a line o of length n. -/
def haarLineInverse {S : Type} (N : Num S) (n : Nat) (o : Nat → S) (k : Nat) : S :=
  let m := n / 2
  if k % 2 = 0 then N.div (N.add (o (k / 2)) (o (m + k / 2))) N.sqrt2
  else N.div (N.sub (o (k / 2)) (o (m + k / 2))) N.sqrt2

/-! ## Passes over the top-left nr×nc region of a working plane -/

/-- Every row r < nr of the region through the line function f. -/
def rowPass {S : Type} (f : Nat → (Nat → S) → Nat → S) (nr nc : Nat) (W : Plane S) : Plane S :=
  ⟨fun r c => if r < nr ∧ c < nc then f nc (fun k => W.get r k) c else W.get r c⟩

/-- Every column c < nc of the region through the line function f. -/
def colPass {S : Type} (f : Nat → (Nat → S) → Nat → S) (nr nc : Nat) (W : Plane S) : Plane S :=
  ⟨fun r c => if r < nr ∧ c < nc then f nr (fun k => W.get k c) r else W.get r c⟩

/-- One forward level over the region: rows, then columns (R174, R182). The h×w plane is tabulated after each pass. -/
def levelForward {S : Type} (N : Num S) (h w nr nc : Nat) (W : Plane S) : Plane S :=
  (colPass (haarLineForward N) nr nc ((rowPass (haarLineForward N) nr nc W).tabulate h w)).tabulate h w

/-- One inverse level over the region: columns, then rows (R175, R183). -/
def levelInverse {S : Type} (N : Num S) (h w nr nc : Nat) (W : Plane S) : Plane S :=
  (rowPass (haarLineInverse N) nr nc ((colPass (haarLineInverse N) nr nc W).tabulate h w)).tabulate h w

/-! ## Level geometry (R173) -/

/-- `even(a) = a − (a mod 2)` (R11). -/
def evenDown (a : Nat) : Nat := a - a % 2

/-- `cw[l]` of a width, `ch[l]` of a height (R173). -/
def levelDim (d l : Nat) : Nat :=
  match l with
  | 0 => d
  | l + 1 => evenDown (levelDim d l) / 2

/-- `ew[l]`, `eh[l]` (R173). -/
def levelEven (d l : Nat) : Nat := evenDown (levelDim d l)

/-! ## Block form (R174, R175) -/

/-- The three-level forward transform of a grid. -/
def haar8Forward {S : Type} (N : Num S) (g : GridOf S) : GridOf S :=
  gridOfPlane ([8, 4, 2].foldl (fun W n => levelForward N 8 8 n n W) (planeOfGrid g))

/-- The three-level inverse transform of a grid, coarsest level first. -/
def haar8Inverse {S : Type} (N : Num S) (g : GridOf S) : GridOf S :=
  gridOfPlane ([2, 4, 8].foldl (fun W n => levelInverse N 8 8 n n W) (planeOfGrid g))

/-! ## Full-image form (R180 to R183) -/

/-- The loop of R180 with `fuel` levels still allowed. -/
def calcLevelsLoop (fuel w h : Nat) : Nat :=
  match fuel with
  | 0 => 0
  | fuel + 1 => if 2 ≤ w ∧ 2 ≤ h then calcLevelsLoop fuel (w / 2) (h / 2) + 1 else 0

/-- `calcLevels(w, h)` (R180): halvings while both dimensions are ≥ 2, at most 6. -/
def calcLevels (w h : Nat) : Nat := calcLevelsLoop Config.dwtMaxLevels w h

/-- `dwtF`: levels 0 to L−1 of a w×h plane (R182). -/
def dwtForward {S : Type} (N : Num S) (w h L : Nat) (W : Plane S) : Plane S :=
  match L with
  | 0 => W
  | l + 1 => levelForward N h w (levelEven h l) (levelEven w l) (dwtForward N w h l W)

/-- `dwtI`: levels L−1 down to 0 (R183). -/
def dwtInverse {S : Type} (N : Num S) (w h L : Nat) (W : Plane S) : Plane S :=
  match L with
  | 0 => W
  | l + 1 => dwtInverse N w h l (levelInverse N h w (levelEven h l) (levelEven w l) W)

/-- Position (row, col) lies in the transformed region R(0) of a transform with at least one level; every other sample is
only copied (R182). -/
def transformed (w h L row col : Nat) : Bool :=
  decide (0 < L) && decide (row < levelEven h 0) && decide (col < levelEven w 0)

/-- `LEVELS ≤ calcLevels(w, h)`, else `BAD_ARG` (R181). -/
def needLevels (s : State) (d : Desc) : Bool × FaultCode :=
  (decide (calcLevels d.w.toNat d.h.toNat < s.levels.toNat), .badArg)

/-- Checks 1 to 5 of R182 and R183. -/
def dwtChecks (s : State) (dd ds : RegNum) : Checks :=
  let Dd := s.desc dd
  let Ds := s.desc ds
  [needDesc s dd, needDesc s ds, needShape (planesMatch Dd Ds), needLevels s Ds, needApart Dd Ds]

/-- The effects both directions share: the source plane through `f`, into the destination. -/
def dwtEffects (s : State) (dd ds : RegNum) (f : Nat → Nat → Nat → Plane Sample → Plane Sample) : Result :=
  let Dd := s.desc dd
  let Ds := s.desc ds
  let w := Ds.w.toNat
  let h := Ds.h.toNat
  let L := s.levels.toNat
  reaching s [Dd, Ds] <|
    let finite := allFinite (s.channelSamples Ds 0)
    let W := f w h L ((s.plane Ds).tabulate h w)
    completes (s.writeChannel Dd 0 fun row col =>
      let place := Dd.idx row col 0
      if transformed w h L row col then s.computed finite place (W.get row col) else s.moved finite place (W.get row col))

/-- `HAAR8.F gd, gs` (R174). -/
def execHaar8F (gd gs : RegNum) (s : State) : Result :=
  gridTransform (.haar8F gd gs) gd gs (haar8Forward Binary64.num) s

/-- `HAAR8.I gd, gs` (R175). -/
def execHaar8I (gd gs : RegNum) (s : State) : Result :=
  gridTransform (.haar8I gd gs) gd gs (haar8Inverse Binary64.num) s

/-- `DWT.LEV ds` (R180). -/
def execDwtLev (ds : RegNum) (s : State) : Result :=
  let D := s.desc ds
  run (.dwtLev ds) s [needDesc s ds] (completes (s.setLevels (calcLevels D.w.toNat D.h.toNat)))

/-- `DWT.F dd, ds` (R182). -/
def execDwtF (dd ds : RegNum) (s : State) : Result :=
  run (.dwtF dd ds) s (dwtChecks s dd ds) (dwtEffects s dd ds (dwtForward Binary64.num))

/-- `DWT.I dd, ds` (R183). -/
def execDwtI (dd ds : RegNum) (s : State) : Result :=
  run (.dwtI dd ds) s (dwtChecks s dd ds) (dwtEffects s dd ds (dwtInverse Binary64.num))

end Sys2Proof.Machine
end

