-- ==== Sys2Proof/Machine/Quantizer.lean ====
section
/-! DEFINITION. The quantiser and codec construction (spec/44_quantizer.md): CONFIG, Q.BLK, DQ.BLK, QW.BLK, DQW.BLK,
QW.PLN, DQW.PLN, BITS.BLK, BITS.PLN. -/

namespace Sys2Proof.Machine

/-! ## Scale and tables (R200 to R203, R210) -/

/-- `scale(q)` (R200). -/
def scaleOf {S : Type} (N : Num S) (q : S) : S :=
  N.div (if N.lt q (N.ofInt 50) then N.div (N.ofInt 5000) q else N.sub (N.ofInt 200) (N.mul (N.ofInt 2) q)) (N.ofInt 100)

/-- `BASE[t][i][j]` (R201). -/
def baseEntry (t : TableSel) (i j : Nat) : Nat :=
  match t with
  | .luma => (Config.baseLuma.getD i []).getD j 0
  | .chroma => (Config.baseChroma.getD i []).getD j 0

/-- `QT[t][i][j] = max(1.0, rnd(BASE[t][i][j]·s))` (R202). -/
def tableEntry {S : Type} (N : Num S) (t : TableSel) (s : S) (i j : Nat) : S :=
  N.max (N.ofInt 1) (N.rnd (N.mul (N.ofInt (baseEntry t i j)) s))

/-- The table of R202 for scale s. -/
def deriveTable {S : Type} (N : Num S) (t : TableSel) (s : S) : GridOf S := gridOf (tableEntry N t s)

/-- `32·s` (R210). -/
def baseStepOf {S : Type} (N : Num S) (s : S) : S := N.mul (N.ofInt 32) s

/-- Check 1 of R203: `QUALITY` is not a finite number, or `QUALITY ≤ 0`. -/
def State.badQuality (s : State) : Bool :=
  !Binary64.isFinite s.quality || Binary64.le s.quality zeroSample

/-- The effects of R203. -/
def State.configured (s : State) : State :=
  let x := scaleOf Binary64.num s.quality
  { s with
    cfg := s.cfgstage
    qactive := s.quality
    scale := s.freeZero 0 x
    basestep := s.freeZero 1 (baseStepOf Binary64.num x)
    qtLuma := deriveTable Binary64.num .luma x
    qtChroma := deriveTable Binary64.num .chroma x
    status := { s.status with cfgv := true } }

/-- `CONFIG` (R203). -/
def execConfig (s : State) : Result :=
  run .config s [(s.badQuality, .badConfig), (cfgChroma s.cfgstage == 3, .badConfig)] (completes s.configured)

/-! ## Quantise and dequantise (R204 to R206) -/

/-- `quant(v, q) = rnd(v / q)` (R204). -/
def quant {S : Type} (N : Num S) (v q : S) : S := N.rnd (N.div v q)

/-- `dequant(k, q) = k·q` (R204). -/
def dequant {S : Type} (N : Num S) (k q : S) : S := N.mul k q

/-- Two grids combined element by element. -/
def gridZip {S : Type} (f : S → S → S) (a b : GridOf S) : GridOf S := gridOf fun i j => f (gridAt a i j) (gridAt b i j)

/-- `Q.BLK` and `DQ.BLK`: the source grid combined with table t (R205, R206); `CFG.QEN` is not read. -/
def tableCommand (cmd : Instr) (gd gs : RegNum) (t : TableSel) (f : Sample → Sample → Sample) (s : State) : Result :=
  run cmd s [needGrid s gs, needConfig s] <|
    let finite := allFinite (gridSamples (s.grid gs) ++ gridSamples (s.table t))
    completes (s.setGrid gd (s.computedGrid finite 0 (gridZip f (s.grid gs) (s.table t))))

/-- `Q.BLK gd, gs, t` (R205). -/
def execQBlk (gd gs : RegNum) (t : TableSel) (s : State) : Result :=
  tableCommand (.qBlk gd gs t) gd gs t (quant Binary64.num) s

/-- `DQ.BLK gd, gs, t` (R206). -/
def execDqBlk (gd gs : RegNum) (t : TableSel) (s : State) : Result :=
  tableCommand (.dqBlk gd gs t) gd gs t (dequant Binary64.num) s

/-! ## Subband steps (R211) -/

/-- `max(1, base / pow2(l))`. -/
def bandStep {S : Type} (N : Num S) (base : S) (l : Nat) : S := N.max (N.ofInt 1) (N.div base (N.pow2 l))

/-- The walk of R211 from level l−1 down to 0: the first region that contains the position; outside R(0), the edge step
`max(1, base)` (`DWT_EDGE_STEP` with its default, D28). -/
def stepWalk {S : Type} (N : Num S) (x y w h : Nat) (base : S) (l : Nat) : S :=
  match l with
  | 0 => N.max (N.ofInt 1) base
  | l + 1 => if x < levelEven w l ∧ y < levelEven h l then bandStep N base l else stepWalk N x y w h base l

/-- `dwtStep(x, y, w, h, L, base)` (R211): x is the column and y the row. -/
def dwtStep {S : Type} (N : Num S) (x y w h L : Nat) (base : S) : S :=
  if 1 ≤ L ∧ x < levelDim w L ∧ y < levelDim h L then bandStep N base L else stepWalk N x y w h base L

/-- The 8×8 step map of the block form (R212, R213). -/
def blockSteps {S : Type} (N : Num S) (base : S) : GridOf S := gridOf fun i j => dwtStep N j i 8 8 3 base

/-- `QW.BLK` and `DQW.BLK`: the source grid combined with the block step map; `LEVELS` is not read (R212, R213). -/
def waveletCommand (cmd : Instr) (gd gs : RegNum) (f : Sample → Sample → Sample) (s : State) : Result :=
  run cmd s [needGrid s gs, needConfig s] <|
    let finite := allFinite (s.basestep :: gridSamples (s.grid gs))
    completes (s.setGrid gd
      (s.computedGrid finite 0 (gridZip f (s.grid gs) (blockSteps Binary64.num s.basestep))))

/-- `QW.BLK gd, gs` (R212). -/
def execQwBlk (gd gs : RegNum) (s : State) : Result :=
  waveletCommand (.qwBlk gd gs) gd gs (quant Binary64.num) s

/-- `DQW.BLK gd, gs` (R213). -/
def execDqwBlk (gd gs : RegNum) (s : State) : Result :=
  waveletCommand (.dqwBlk gd gs) gd gs (dequant Binary64.num) s

/-- Checks 1 to 6 of R214 and R215. -/
def waveletPlaneChecks (s : State) (dd ds : RegNum) : Checks :=
  let Dd := s.desc dd
  let Ds := s.desc ds
  [needDesc s dd, needDesc s ds, needConfig s, needShape (planesMatch Dd Ds), needLevels s Ds, needApart Dd Ds]

/-- The effects `QW.PLN` and `DQW.PLN` share: every sample of the plane combined with its step. -/
def waveletPlaneEffects (s : State) (dd ds : RegNum) (f : Sample → Sample → Sample) : Result :=
  let Dd := s.desc dd
  let Ds := s.desc ds
  reaching s [Dd, Ds] <|
    let finite := allFinite (s.basestep :: s.channelSamples Ds 0)
    completes (s.writeChannel Dd 0 fun row col =>
      s.computed finite (Dd.idx row col 0)
        (f (s.pixel Ds row col 0)
          (dwtStep Binary64.num col row Ds.w.toNat Ds.h.toNat s.levels.toNat s.basestep)))

/-- `QW.PLN dd, ds` (R214). -/
def execQwPln (dd ds : RegNum) (s : State) : Result :=
  run (.qwPln dd ds) s (waveletPlaneChecks s dd ds) (waveletPlaneEffects s dd ds (quant Binary64.num))

/-- `DQW.PLN dd, ds` (R215). -/
def execDqwPln (dd ds : RegNum) (s : State) : Result :=
  run (.dqwPln dd ds) s (waveletPlaneChecks s dd ds) (waveletPlaneEffects s dd ds (dequant Binary64.num))

/-! ## Bit estimator (R216 to R218) -/

/-- `bits(v)` (R216): 0.5 if |v| < 0.5, else `log2(|v|) + 3`. -/
def bitCost {S : Type} (N : Num S) (v : S) : S :=
  if N.lt (N.abs v) (N.ofDec 5 1) then N.ofDec 5 1 else N.add (N.log2 (N.abs v)) (N.ofInt 3)

/-- The sum of the costs from 0 in list order, the header constant added last (R217). -/
def bitEstimate {S : Type} (N : Num S) (header : S) (vs : List S) : S := N.add (N.sum (vs.map (bitCost N))) header

/-- `RES0 <-` the estimate of some samples (R217, R218). -/
def State.withEstimate (s : State) (vs : List Sample) : State :=
  s.setRes0 (s.computed (allFinite vs) 0 (bitEstimate Binary64.num Config.hdrBits vs))

/-- `BITS.BLK gs` (R217). -/
def execBitsBlk (gs : RegNum) (s : State) : Result :=
  run (.bitsBlk gs) s [needGrid s gs] (completes (s.withEstimate (gridSamples (s.grid gs))))

/-- `BITS.PLN ds` (R218). -/
def execBitsPln (ds : RegNum) (s : State) : Result :=
  run (.bitsPln ds) s [needDesc s ds] <|
    reaching s [s.desc ds] (completes (s.withEstimate (s.imageSamples (s.desc ds))))

end Sys2Proof.Machine
end

