-- ==== Sys2Proof/Machine/Pipeline.lean ====
section
/-! DEFINITION. The pipeline sequencer (spec/46_pipeline.md): PROC.PLN, INSPECT. -/

namespace Sys2Proof.Machine

/-- A coefficient quantised and dequantised by step q (R242). -/
def requant {S : Type} (N : Num S) (v q : S) : S := dequant N (quant N v q) q

/-- One full block through the block-DCT path (R242). -/
def processBlock {S : Type} (N : Num S) (qen : Bool) (T f : GridOf S) : GridOf S :=
  let F := dctForward N f
  dctInverse N (if qen then gridZip (requant N) F T else F)

/-- Position (row, col) lies in a full block of a w×h plane (R241); the other samples are boundary samples. -/
def inFullBlock (w h row col : Nat) : Bool := decide (row < 8 * (h / 8)) && decide (col < 8 * (w / 8))

/-- The block-DCT path of R242: full blocks are processed, boundary samples keep the source values. -/
def processDct {S : Type} (N : Num S) (qen : Bool) (T : GridOf S) (w h : Nat) (W : Plane S) : Plane S :=
  let B : Plane (GridOf S) :=
    (Plane.mk fun by' bx => processBlock N qen T (blockAt W (8 * by') (8 * bx))).tabulate (h / 8) (w / 8)
  ⟨fun row col => if inFullBlock w h row col then gridAt (B.get (row / 8) (col / 8)) (row % 8) (col % 8)
    else W.get row col⟩

/-- The full-image Haar-DWT path of R242; the level count is `calcLevels(w, h)` and `CSR.LEVELS` is not read. -/
def processDwt {S : Type} (N : Num S) (qen : Bool) (base : S) (w h : Nat) (W : Plane S) : Plane S :=
  let L := calcLevels w h
  let C := dwtForward N w h L W
  let Q : Plane S := if qen then ⟨fun row col => requant N (C.get row col) (dwtStep N col row w h L base)⟩ else C
  dwtInverse N w h L (Q.tabulate h w)

/-- The output samples of `PROC.PLN` that it computes; the others it copies (R241, R242, R182). -/
def procComputes (xform qen : Bool) (w h row col : Nat) : Bool :=
  if xform then qen || transformed w h (calcLevels w h) row col else inFullBlock w h row col

/-- A w×h plane has a full block (R241). -/
def hasFullBlock (w h : Nat) : Bool := decide (8 ≤ w) && decide (8 ≤ h)

/-- The table or step samples `PROC.PLN` reads from plane D (R242): none with quantisation disabled; under block-DCT the table
only when a full block reads it, so that a plane without one is copied whatever the table holds (R241, R302). That exactly
the samples the loops read are inputs for R10 is the model's choice (DESIGN CHOICE, log 3). -/
def State.procSteps (s : State) (D : Desc) (t : TableSel) : List Sample :=
  if cfgQen s.cfg then
    if cfgXform s.cfg then [s.basestep]
    else if hasFullBlock D.w.toNat D.h.toNat then gridSamples (s.table t)
    else []
  else []

/-- The working copy `PROC.PLN` ends with (R242). -/
def State.processed (s : State) (D : Desc) (t : TableSel) : Plane Sample :=
  let w := D.w.toNat
  let h := D.h.toNat
  let W := (s.plane D).tabulate h w
  if cfgXform s.cfg then processDwt Binary64.num (cfgQen s.cfg) s.basestep w h W
  else processDct Binary64.num (cfgQen s.cfg) (s.table t) w h W

/-- `PROC.PLN dd, ds, t` (R242). -/
def execProcPln (dd ds : RegNum) (t : TableSel) (s : State) : Result :=
  let Dd := s.desc dd
  let Ds := s.desc ds
  run (.procPln dd ds t) s
      [needDesc s dd, needDesc s ds, needConfig s, needShape (planesMatch Dd Ds), needApart Dd Ds] <|
    reaching s [Dd, Ds] <|
      let finite := allFinite (s.channelSamples Ds 0 ++ s.procSteps Ds t)
      let W := s.processed Ds t
      completes (s.writeChannel Dd 0 fun row col =>
        let place := Dd.idx row col 0
        if procComputes (cfgXform s.cfg) (cfgQen s.cfg) Ds.w.toNat Ds.h.toNat row col
        then s.computed finite place (W.get row col) else s.moved finite place (W.get row col))

/-- `g[0] <- A; g[1] <- B; g[2] <- C; g[3] <- D; g[4] <- E` (R22, R245). -/
def State.setSnapshot (s : State) (A B C D E : Grid) : State :=
  ((((s.setGrid 0 A).setGrid 1 B).setGrid 2 C).setGrid 3 D).setGrid 4 E

/-- The snapshot of a block under the block-DCT configuration (R245): samples, coefficients, table, indices (or the
coefficients with quantisation disabled), reconstruction. -/
def State.snapshot (s : State) (D : Desc) (t : TableSel) : State :=
  let O := s.loadBlock D s.a0.toNat s.a1.toNat s.a2.toNat
  let T := s.table t
  let finite := allFinite (s.blockSamples D s.a0.toNat s.a1.toNat s.a2.toNat ++ gridSamples T)
  let F := dctForward Binary64.num O
  let Fout := s.computedGrid finite 1 F
  let K := gridZip (quant Binary64.num) F T
  let Kout := if cfgQen s.cfg then s.computedGrid finite 3 K else s.movedGrid finite 3 Fout
  let R := dctInverse Binary64.num (if cfgQen s.cfg then gridZip (dequant Binary64.num) K T else F)
  s.setSnapshot (s.movedGrid finite 0 O) Fout (s.movedGrid finite 2 T) Kout (s.computedGrid finite 4 R)

/-- `INSPECT ds, t` (R245). Under the wavelet configuration: five all-zero grids, no memory access, no argument check. -/
def execInspect (ds : RegNum) (t : TableSel) (s : State) : Result :=
  let D := s.desc ds
  run (.inspect ds t) s
      ([needDesc s ds, needConfig s] ++ (if cfgXform s.cfg then [] else [needChannel s D, needBlock s D])) <|
    if cfgXform s.cfg then completes (s.setSnapshot zeroGrid zeroGrid zeroGrid zeroGrid zeroGrid)
    else reaching s [D] (completes (s.snapshot D t))

end Sys2Proof.Machine
end

