-- ==== Sys2Proof/Machine/System.lean ====
section
/-! DEFINITION. System and data-movement commands (spec/40_system_and_movement.md): NOP, DSET, GLD, GST, GMOV, GZERO, GQT,
SPLIT, MERGE, COPY. -/

namespace Sys2Proof.Machine

/-- `NOP` (R120). -/
def execNop (s : State) : Result := run .nop s [] (completes s)

/-- The record `DSET` makes of `A0..A3` (R122). -/
def State.stagedDesc (s : State) : Desc where
  base := s.a0
  w := s.a1.setWidth 16
  h := s.a2.setWidth 16
  c := s.a3.setWidth 8

/-- Check 1 of R122. -/
def State.badDims (s : State) : Bool :=
  s.a1 == 0 || s.a2 == 0 || s.a3 == 0 || decide (65535 < s.a1.toNat) || decide (65535 < s.a2.toNat)
    || decide (255 < s.a3.toNat)

/-- Check 2 of R122; the sum does not wrap (R11). -/
def State.outOfBounds (s : State) : Bool :=
  decide (s.memSamples < s.a0.toNat + s.a1.toNat * s.a2.toNat * s.a3.toNat)

/-- `DSET dd` (R122). -/
def execDset (dd : RegNum) (s : State) : Result :=
  run (.dset dd) s [(s.badDims, .badDims), (s.outOfBounds, .bounds)] (completes (s.setDesc dd s.stagedDesc))

/-- `GLD gd, ds` (R123). -/
def execGld (gd ds : RegNum) (s : State) : Result :=
  let D := s.desc ds
  run (.gld gd ds) s [needDesc s ds, needChannel s D, needBlock s D] <|
    reaching s [D] <|
      let finite := allFinite (s.blockSamples D s.a0.toNat s.a1.toNat s.a2.toNat)
      completes (s.setGrid gd (s.movedGrid finite 0 (s.loadBlock D s.a0.toNat s.a1.toNat s.a2.toNat)))

/-- `GST dd, gs` (R124). Its inputs for R10 are the elements it stores; the dropped ones are not read (log 3). -/
def execGst (dd gs : RegNum) (s : State) : Result :=
  let D := s.desc dd
  run (.gst dd gs) s [needDesc s dd, needGrid s gs, needChannel s D, needBlock s D] <|
    reaching s [D] <|
      let stored := blockWrites D s.a0.toNat s.a1.toNat s.a2.toNat (s.grid gs)
      let G := s.movedGrid (allFinite (stored.map (·.2))) 0 (s.grid gs)
      completes (s.memWriteAll (blockWrites D s.a0.toNat s.a1.toNat s.a2.toNat G))

/-- `GMOV gd, gs` (R125). -/
def execGmov (gd gs : RegNum) (s : State) : Result :=
  run (.gmov gd gs) s [needGrid s gs] <|
    completes (s.setGrid gd (s.movedGrid (allFinite (gridSamples (s.grid gs))) 0 (s.grid gs)))

/-- `GZERO gd` (R126). -/
def execGzero (gd : RegNum) (s : State) : Result :=
  run (.gzero gd) s [] (completes (s.setGrid gd zeroGrid))

/-- `GQT gd, t` (R127). -/
def execGqt (gd : RegNum) (t : TableSel) (s : State) : Result :=
  run (.gqt gd t) s [needConfig s] <|
    completes (s.setGrid gd (s.movedGrid (allFinite (gridSamples (s.table t))) 0 (s.table t)))

/-- `SPLIT dd, ds` (R128). -/
def execSplit (dd ds : RegNum) (s : State) : Result :=
  let Dd := s.desc dd
  let Ds := s.desc ds
  run (.split dd ds) s
      [needDesc s dd, needDesc s ds, needShape (Dd.c == 1 && Dd.sameSize Ds), needChannel s Ds, needApart Dd Ds] <|
    reaching s [Dd, Ds] <|
      let finite := allFinite (s.channelSamples Ds s.a2.toNat)
      completes (s.writeChannel Dd 0 fun row col =>
        s.moved finite (Dd.idx row col 0) (s.pixel Ds row col s.a2.toNat))

/-- `MERGE dd, ds` (R129). -/
def execMerge (dd ds : RegNum) (s : State) : Result :=
  let Dd := s.desc dd
  let Ds := s.desc ds
  run (.merge dd ds) s
      [needDesc s dd, needDesc s ds, needShape (Ds.c == 1 && Dd.sameSize Ds), needChannel s Dd, needApart Dd Ds] <|
    reaching s [Dd, Ds] <|
      let finite := allFinite (s.channelSamples Ds 0)
      completes (s.writeChannel Dd s.a2.toNat fun row col =>
        s.moved finite (Dd.idx row col s.a2.toNat) (s.pixel Ds row col 0))

/-- `COPY dd, ds` (R130). -/
def execCopy (dd ds : RegNum) (s : State) : Result :=
  let Dd := s.desc dd
  let Ds := s.desc ds
  run (.copy dd ds) s [needDesc s dd, needDesc s ds, needShape (Dd.sameShape Ds), needApart Dd Ds] <|
    reaching s [Dd, Ds] <|
      let finite := allFinite (s.imageSamples Ds)
      completes (s.writeImage Dd fun k => s.moved finite (Dd.base.toNat + k) (s.memRead (Ds.base.toNat + k)))

end Sys2Proof.Machine
end

