-- ==== Sys2Proof/Machine/Dispatch.lean ====
section
/-! DEFINITION. What a decoded command does: one arm per row of the opcode map (spec/30_encoding.md R94), each a call of its
meaning. The frame around it (halted block, decoding) is in Host.lean. -/

namespace Sys2Proof.Machine

def exec (i : Instr) (s : State) : Host.Outcome State Fault Refusal :=
  match i with
  | .nop => Sys2Proof.Machine.execNop s
  | .config => Sys2Proof.Machine.execConfig s
  | .dset dd => Sys2Proof.Machine.execDset dd s
  | .gld gd ds => Sys2Proof.Machine.execGld gd ds s
  | .gst dd gs => Sys2Proof.Machine.execGst dd gs s
  | .gmov gd gs => Sys2Proof.Machine.execGmov gd gs s
  | .gzero gd => Sys2Proof.Machine.execGzero gd s
  | .gqt gd t => Sys2Proof.Machine.execGqt gd t s
  | .split dd ds => Sys2Proof.Machine.execSplit dd ds s
  | .merge dd ds => Sys2Proof.Machine.execMerge dd ds s
  | .copy dd ds => Sys2Proof.Machine.execCopy dd ds s
  | .cscF dd ds => Sys2Proof.Machine.execCscF dd ds s
  | .cscI dd ds => Sys2Proof.Machine.execCscI dd ds s
  | .dctF gd gs => Sys2Proof.Machine.execDctF gd gs s
  | .dctI gd gs => Sys2Proof.Machine.execDctI gd gs s
  | .haar8F gd gs => Sys2Proof.Machine.execHaar8F gd gs s
  | .haar8I gd gs => Sys2Proof.Machine.execHaar8I gd gs s
  | .dwtLev ds => Sys2Proof.Machine.execDwtLev ds s
  | .dwtF dd ds => Sys2Proof.Machine.execDwtF dd ds s
  | .dwtI dd ds => Sys2Proof.Machine.execDwtI dd ds s
  | .qBlk gd gs t => Sys2Proof.Machine.execQBlk gd gs t s
  | .dqBlk gd gs t => Sys2Proof.Machine.execDqBlk gd gs t s
  | .qwBlk gd gs => Sys2Proof.Machine.execQwBlk gd gs s
  | .dqwBlk gd gs => Sys2Proof.Machine.execDqwBlk gd gs s
  | .qwPln dd ds => Sys2Proof.Machine.execQwPln dd ds s
  | .dqwPln dd ds => Sys2Proof.Machine.execDqwPln dd ds s
  | .bitsBlk gs => Sys2Proof.Machine.execBitsBlk gs s
  | .bitsPln ds => Sys2Proof.Machine.execBitsPln ds s
  | .cdown dd ds m => Sys2Proof.Machine.execCdown dd ds m s
  | .cup dd ds m => Sys2Proof.Machine.execCup dd ds m s
  | .procPln dd ds t => Sys2Proof.Machine.execProcPln dd ds t s
  | .inspect ds t => Sys2Proof.Machine.execInspect ds t s
  | .psnr da db => Sys2Proof.Machine.execPsnr da db s
  | .ssim da db => Sys2Proof.Machine.execSsim da db s
  | .artmap dd da db => Sys2Proof.Machine.execArtmap dd da db s

end Sys2Proof.Machine
end

