-- ==== Sys2Proof/Machine/Host.lean ====
section
/-! DEFINITION. The host's side: the register port (spec/10_state.md R25 to R46), the memory port (spec/20_memory.md R61), and
the frame that issues a command word (spec/40_system_and_movement.md R121; spec/60_exceptions.md R306). -/

namespace Sys2Proof.Machine

/-! ## The register port -/

/-- The index of `CMD` (R34). -/
def cmdIndex : BitVec 8 := 0x04#8

/-- `ID` reads the ASCII bytes "CDP1" (R30). -/
def idValue : BitVec 32 := 0x43445031#32

/-- Field k of descriptor n as the host reads it, 0 when the descriptor is not valid (R46). -/
def State.descField (s : State) (n : RegNum) (k : Nat) : Container :=
  if s.descValid n then
    match k with
    | 0 => (s.desc n).base.setWidth 64
    | 1 => (s.desc n).w.setWidth 64
    | 2 => (s.desc n).h.setWidth 64
    | _ => (s.desc n).c.setWidth 64
  else 0

/-- `RegRead(i)` (R25): the register's container, or none for an index with no register and for a write-only one. -/
def State.regRead (s : State) (i : BitVec 8) : Option Container :=
  match i.toNat with
  | 0x00 => some (idValue.setWidth 64)
  | 0x01 => some (s.status.word.setWidth 64)
  | 0x02 => some (s.fcmd.setWidth 64)
  | 0x03 => some (s.cmdcnt.setWidth 64)
  | 0x06 => some (s.gvalid.setWidth 64)
  | 0x07 => some (s.dvalid.setWidth 64)
  | 0x08 => some (s.cfgstage.setWidth 64)
  | 0x09 => some s.quality
  | 0x0A => some (s.cfg.setWidth 64)
  | 0x0B => some s.qactive
  | 0x0C => some s.scale
  | 0x0D => some s.basestep
  | 0x0E => some s.gain
  | 0x0F => some (s.levels.setWidth 64)
  | 0x10 => some (s.a0.setWidth 64)
  | 0x11 => some (s.a1.setWidth 64)
  | 0x12 => some (s.a2.setWidth 64)
  | 0x13 => some (s.a3.setWidth 64)
  | 0x18 => some s.res0
  | 0x19 => some s.res1
  | n =>
    if 0x40 ≤ n ∧ n ≤ 0x5F then some (s.descField (Fin.ofNat 8 ((n - 0x40) / 4)) ((n - 0x40) % 4)) else none

/-- `RegWrite(i, v)` at an index other than `CMD` (R25): the state after it, or none for an index with no register and for a
read-only one. A U register keeps its named low bits (D50). -/
def State.regWrite (s : State) (i : BitVec 8) (v : Container) : Option State :=
  match i.toNat with
  | 0x05 => some (if v.getLsbD 0 then s.doReset else s)
  | 0x08 => some { s with cfgstage := v.setWidth 4 }
  | 0x09 => some { s with quality := v }
  | 0x0E => some { s with gain := v }
  | 0x0F => some { s with levels := v.setWidth 3 }
  | 0x10 => some { s with a0 := v.setWidth 32 }
  | 0x11 => some { s with a1 := v.setWidth 32 }
  | 0x12 => some { s with a2 := v.setWidth 32 }
  | 0x13 => some { s with a3 := v.setWidth 32 }
  | _ => none

/-! ## The memory port (R61) -/

/-- `HostMemRead(a)`: none for an address outside plane memory. -/
def State.hostMemRead (s : State) (a : BitVec 32) : Option Sample :=
  if a.toNat < s.memSamples then some (s.memRead a.toNat) else none

/-- `HostMemWrite(a, v)`: none for an address outside plane memory. -/
def State.hostMemWrite (s : State) (a : BitVec 32) (v : Sample) : Option State :=
  if a.toNat < s.memSamples then some (s.memWrite a.toNat v) else none

/-! ## Issuing a command (R121, R306) -/

/-- A write of word w to `CMD`: ignored while the block is halted; else decoded, and run or rejected with `ILLEGAL_CMD`. -/
def issue (w : Word) (s : State) : Result :=
  if s.status.fault then .next s
  else
    match decode w with
    | .error _ => .next (s.begin.raise w .illegalCmd)
    | .ok i => exec i s.begin

/-! ## One host action (R20) -/

/-- The host gets a response. -/
def State.respond (s : State) (r : Response) : State := { s with response := r }

/-- A read's value, or the error response (R25, R61). -/
def State.answer (s : State) (v : Option Container) : State :=
  match v with
  | some x => s.respond (.value x)
  | none => s.respond .refused

/-- A write's new state, or the error response with nothing changed (R25, R61). -/
def State.accept (s : State) (t : Option State) : State :=
  match t with
  | some u => u.respond .done
  | none => s.respond .refused

/-- One host action; the write to `CMD` contains the whole execution of the command (R20, R34). -/
def act (a : HostAction) (s : State) : Result :=
  match a with
  | .regRead i => .next (s.answer (s.regRead i))
  | .regWrite i v => if i = cmdIndex then issue (v.setWidth 32) (s.respond .done) else .next (s.accept (s.regWrite i v))
  | .memRead a => .next (s.answer (s.hostMemRead a))
  | .memWrite a v => .next (s.accept (s.hostMemWrite a v))
  | .resetInput => .next (s.doReset.respond .done)

/-- Take the host's next action; with none to take the block is idle and holds all its state (R327). -/
def takeAction (s : State) : Result :=
  match s.script with
  | [] => .next s
  | a :: rest => act a { s with script := rest }

end Sys2Proof.Machine
end

