-- ==== Sys2Proof/Machine/Step.lean ====
section
/-! DEFINITION. One step is one host action (spec/10_state.md R20): the block fetches nothing, and a command word comes from
the host's write to `CMD` (R34). -/

namespace Sys2Proof.Machine

/-- One step: the host's next action. -/
def step (s : State) : Host.Outcome State Fault Refusal := takeAction s

/-- The state with a command word placed where the next step takes it: the host's next action is the write of the word to
`CMD`. This stands for the host's issue of the command. -/
def State.withFetchWord (s : State) (nbits w : Nat) : State :=
  { s with script := .regWrite cmdIndex (BitVec.ofNat 64 (w % 2 ^ nbits % 2 ^ 32)) :: s.script }

end Sys2Proof.Machine
end

