-- ==== Sys2Proof/Machine/Reference.lean ====
section
/-! DEFINITION. `NUM = ℝ`, the reference semantics (spec/00_scope.md R6, R7 (a)): every operation exact. The machine does not
run over it; statements about the arithmetic rules over ℝ are made with it. -/

namespace Sys2Proof.Machine

/-- `rnd(v) = sign(v)·floor(|v| + 1/2)` (R9). -/
noncomputable def realRnd (v : ℝ) : ℝ := SignType.sign v * ⌊|v| + 1 / 2⌋

open Classical in
/-- `NUM = ℝ` (R7 (a)). -/
noncomputable def realNum : Num ℝ where
  add := fun a b => a + b
  sub := fun a b => a - b
  mul := fun a b => a * b
  div := fun a b => a / b
  neg := fun a => -a
  abs := fun a => |a|
  min := fun a b => Min.min a b
  max := fun a b => Max.max a b
  lt := fun a b => decide (a < b)
  le := fun a b => decide (a ≤ b)
  ofInt := fun i => (i : ℝ)
  ofDec := fun m k => (m : ℝ) / 10 ^ k
  rnd := realRnd
  pow2 := fun l => 2 ^ l
  log2 := Real.logb 2
  log10 := Real.logb 10
  sqrt2 := Real.sqrt 2
  invSqrt2 := 1 / Real.sqrt 2
  ck := fun k => Real.cos (k * Real.pi / 16)

/-- The real value of a finite binary64 sample: a whole number of units of 2^-1074. -/
noncomputable def sampleReal (x : Sample) : ℝ := Binary64.value x / 2 ^ 1074

end Sys2Proof.Machine
end

