-- ==== Sys2Proof/Safety.lean ====
section
/-! DEFINITION. What the states between host actions are like, and the words statements are made in: an invariant that every
step keeps, what a command leaves unchanged, and when two samples are the same up to the sign of a zero. -/

namespace Sys2Proof.Machine

/-! ## The invariant -/

/-- Plane memory is in canonical form and holds no address outside plane memory (spec/20_memory.md R60, R68). -/
def State.memoryOk (s : State) : Prop := s.mem.wf = true ∧ ∀ cell ∈ s.mem, cell.1 < s.memSamples

/-- A valid descriptor satisfies R23's invariants; one that is not valid has its fields 0. -/
def State.descriptorsOk (s : State) : Prop :=
  ∀ n, if s.descValid n then (s.desc n).legal s.memSamples = true else s.desc n = zeroDesc

/-- FAULT, FCODE and FCMD agree (R31, R32, R301): no fault is code 0 and word 0, a fault is code 1 to 9. -/
def State.faultFieldsOk (s : State) : Prop :=
  if s.status.fault then 1 ≤ s.status.fcode.toNat ∧ s.status.fcode.toNat ≤ 9 else s.status.fcode = 0 ∧ s.fcmd = 0

/-- With CFGV set every table entry is ≥ 1.0 (R24), the active quality is finite and positive and the active chroma mode is
not the reserved one (R203); with CFGV clear the active configuration reads 0 (R39, R40). -/
def State.configurationOk (s : State) : Prop :=
  if s.status.cfgv then
    (∀ t i j, i < 8 → j < 8 → Binary64.le (Binary64.ofInt 1) (gridAt (s.table t) i j) = true)
      ∧ Binary64.isFinite s.qactive = true ∧ Binary64.lt zeroSample s.qactive = true ∧ cfgChroma s.cfg ≠ 3
  else s.cfg = 0 ∧ s.qactive = zeroSample ∧ s.scale = zeroSample ∧ s.basestep = zeroSample

/-- The states the block is in between two host actions: in the atomic model BUSY is 0 there (R31). -/
structure State.Inv (s : State) : Prop where
  memory : s.memoryOk
  descriptors : s.descriptorsOk
  faultFields : s.faultFieldsOk
  configuration : s.configurationOk
  idle : s.status.busy = false

/-! ## Which commands reach plane memory (spec/20_memory.md R77) -/

/-- The commands that read plane memory, under the active configuration `cfg` (`INSPECT` reads only when `XFORM = 0`). -/
def readsMemory (i : Instr) (cfg : BitVec 4) : Bool :=
  match i with
  | .gld .. | .split .. | .merge .. | .copy .. | .cscF .. | .cscI .. | .dwtF .. | .dwtI .. | .qwPln .. | .dqwPln ..
  | .bitsPln .. | .cdown .. | .cup .. | .procPln .. | .psnr .. | .ssim .. | .artmap .. => true
  | .inspect .. => !cfgXform cfg
  | .nop | .config | .dset .. | .gst .. | .gmov .. | .gzero .. | .gqt .. | .dctF .. | .dctI .. | .haar8F .. | .haar8I ..
  | .dwtLev .. | .qBlk .. | .dqBlk .. | .qwBlk .. | .dqwBlk .. | .bitsBlk .. => false

/-- The commands that write plane memory. -/
def writesMemory (i : Instr) : Bool :=
  match i with
  | .gst .. | .split .. | .merge .. | .copy .. | .cscF .. | .cscI .. | .dwtF .. | .dwtI .. | .qwPln .. | .dqwPln ..
  | .cdown .. | .cup .. | .procPln .. | .artmap .. => true
  | .nop | .config | .dset .. | .gld .. | .gmov .. | .gzero .. | .gqt .. | .dctF .. | .dctI .. | .haar8F .. | .haar8I ..
  | .dwtLev .. | .qBlk .. | .dqBlk .. | .qwBlk .. | .dqwBlk .. | .bitsBlk .. | .bitsPln .. | .inspect .. | .psnr ..
  | .ssim .. => false

/-! ## Words for statements -/

/-- The same sample, or two zeros: the sign of a zero is not significant (spec/00_scope.md R9). -/
def sameSample (x y : Sample) : Prop := x = y ∨ (Binary64.isZero x = true ∧ Binary64.isZero y = true)

/-- The same 64 elements up to the signs of zeros. -/
def sameGrid (g h : Grid) : Prop := ∀ i j, i < 8 → j < 8 → sameSample (gridAt g i j) (gridAt h i j)

/-- Command i in state s raises fault f: the next state is R305's, and nothing else is written. -/
def Raises (i : Instr) (s : State) (f : FaultCode) : Prop := exec i s = .next (s.raise (encode i) f)

/-- A valid descriptor that satisfies R23's invariants, as every valid descriptor of a run does. -/
def State.image (s : State) (n : RegNum) : Prop := s.descValid n = true ∧ (s.desc n).legal s.memSamples = true

/-- t is s after a completed command that wrote plane memory and nothing else: every register, valid bit, table and flag as
before, CMDCNT one more, BUSY clear. -/
def OnlyMemory (s t : State) : Prop := t = { s.complete with mem := t.mem }

/-- t is s after a completed command that wrote grid register n and nothing else. -/
def OnlyGrid (s t : State) (n : RegNum) : Prop :=
  t = { s.complete with grids := t.grids, gvalid := setValid s.gvalid n } ∧ ∀ m, m ≠ n → t.grid m = s.grid m

/-- t is s after a completed command that wrote RES0 and nothing else. -/
def OnlyRes0 (s t : State) : Prop := t = { s.complete with res0 := t.res0 }

/-- t is s after a completed metric command: RES0, RES1 and MISMATCH written, nothing else. -/
def OnlyResults (s t : State) (mismatch : Bool) : Prop :=
  t = { (s.complete.setMismatch mismatch) with res0 := t.res0, res1 := t.res1 }

/-- t is s after `INSPECT` (spec/46_pipeline.md R245): grid registers 0 to 4 written and valid, nothing else. -/
def OnlySnapshot (s t : State) : Prop :=
  t = { s.complete with grids := t.grids, gvalid := s.gvalid ||| 0x1F#8 } ∧ ∀ m : RegNum, 5 ≤ m.val → t.grid m = s.grid m

/-- Every address outside the region of an image reads as before. -/
def OutsideUnchanged (d : Desc) (s t : State) : Prop :=
  ∀ a, a < d.base.toNat ∨ d.limit ≤ a → t.memRead a = s.memRead a

/-- Every element of a grid is finite (spec/00_scope.md R10). -/
abbrev FiniteGrid (g : Grid) : Prop := ∀ i, i < 8 → ∀ j, j < 8 → Binary64.isFinite (gridAt g i j) = true

/-- Every sample of channel ch of an image is finite (R10). -/
abbrev State.finiteChannel (s : State) (d : Desc) (ch : Nat) : Prop :=
  ∀ row, row < d.h.toNat → ∀ col, col < d.w.toNat → Binary64.isFinite (s.memRead (d.idx row col ch)) = true

/-- Every sample of an image is finite (R10). -/
abbrev State.finiteImage (s : State) (d : Desc) : Prop :=
  ∀ k, k < d.samples → Binary64.isFinite (s.memRead (d.base.toNat + k)) = true

/-- `op << 24 | a << 21 | b << 18 | c << 15 | m << 13`, the word of a listing line (spec/30_encoding.md R100). -/
def commandWord (op : BitVec 8) (a b c : RegNum) (m : BitVec 2) : Word :=
  op.setWidth 32 <<< 24 ||| BitVec.ofNat 32 a.val <<< 21 ||| BitVec.ofNat 32 b.val <<< 18
    ||| BitVec.ofNat 32 c.val <<< 15 ||| m.setWidth 32 <<< 13

/-- The field `m` of a table-select command: bit 13 is `t`, bit 14 is 0 (spec/30_encoding.md R90, R93). -/
def selectorField (t : TableSel) : BitVec 2 :=
  match t with
  | .luma => 0#2
  | .chroma => 1#2

end Sys2Proof.Machine
end

