-- ==== Sys2Proof/Certificates/Slice0/Obligations.lean ====
section
/-! DEFINITION. The statements for the provers. A command's statement is its rule's checks as a chain of conditions, in the
rule's order (R14, R310), each with the fault it raises, and last what the completed command leaves: what it wrote, and
that it wrote nothing else. A value is stated for finite input samples (R10), a computed one up to the sign of a zero
(R9). A `legal` descriptor is one that satisfies R23's invariants, as every valid descriptor of a run does
(`EveryStepKeepsTheInvariant`). Two parts of the state in these statements are the model's own and no rule's: `script` and
`response`, the host's side of its ports (log 7), and `freeCount`, which `State.complete` advances with CMDCNT (log 5). -/

open Sys2Proof Sys2Proof.Machine

/-! ## The command word -/

/-- Decoding the word of a command gives the command back, for all 35 commands and all operands (R92, R100). -/
def Obligations.DecodeInvertsEncode : Prop :=
  ∀ i : Instr, i.wellFormed = true → decode (encode i) = .ok i

/-- A word that decodes is the one word of its command, and the command is well formed: every word selects at most one
command, and every command has exactly one word (R92). -/
def Obligations.DecodedWordIsItsOnlyEncoding : Prop :=
  ∀ (w : Word) (i : Instr), decode w = .ok i → i.wellFormed = true ∧ encode i = w

/-- R96: an opcode of the listed ranges is unassigned and its words are rejected; an assigned opcode with a must-be-zero bit
set is rejected; `CDOWN` and `CUP` with `m = 3` are rejected. -/
def Obligations.IllegalWordsAreRejected : Prop :=
  (∀ w : Word,
    (let op := (w >>> 24).toNat
     (0x03 ≤ op ∧ op ≤ 0x0F) ∨ (0x15 ≤ op ∧ op ≤ 0x17) ∨ (0x1B ≤ op ∧ op ≤ 0x1F) ∨ (0x22 ≤ op ∧ op ≤ 0x2F)
      ∨ (0x32 ≤ op ∧ op ≤ 0x3F) ∨ op = 0x42 ∨ op = 0x43 ∨ (0x47 ≤ op ∧ op ≤ 0x4F) ∨ op = 0x56 ∨ op = 0x57
      ∨ (0x5A ≤ op ∧ op ≤ 0x5F) ∨ (0x62 ≤ op ∧ op ≤ 0x6F) ∨ (0x72 ≤ op ∧ op ≤ 0x7F) ∨ 0x83 ≤ op) →
    decode w = .error .unassignedOpcode)
  ∧ (∀ (w : Word) (i : Instr), w >>> 24 = i.opcode.setWidth 32 → w &&& i.format.mask ≠ i.opcode.setWidth 32 <<< 24 →
    decode w = .error .mustBeZero)
  ∧ ∀ dd ds : RegNum,
    decode (commandWord 0x60#8 dd ds 0 3#2) = .error .reservedMode
      ∧ decode (commandWord 0x61#8 dd ds 0 3#2) = .error .reservedMode

/-- Words the spec prints, one or more of every family: 0x20200000 and 0x70202000 in 95_test_vectors.md P6 (the latter in
R242 too), the others in R203, R100, R126, R162, R175, R182, R212, R217, R262 and R270. -/
def Obligations.SpecExampleWordsDecode : Prop :=
  decode 0x01000000#32 = .ok .config ∧ decode 0x11280000#32 = .ok (.gst 1 2) ∧ decode 0x13A00000#32 = .ok (.gzero 5)
    ∧ decode 0x20200000#32 = .ok (.cscF 1 0) ∧ decode 0x30200000#32 = .ok (.dctF 1 0) ∧ decode 0x41440000#32 = .ok (.haar8I 2 1)
    ∧ decode 0x45200000#32 = .ok (.dwtF 1 0) ∧ decode 0x50442000#32 = .ok (.qBlk 2 1 .chroma)
    ∧ decode 0x52440000#32 = .ok (.qwBlk 2 1) ∧ decode 0x58400000#32 = .ok (.bitsBlk 2)
    ∧ decode 0x60204000#32 = .ok (.cdown 1 0 2) ∧ decode 0x70202000#32 = .ok (.procPln 1 0 .chroma)
    ∧ decode 0x71002000#32 = .ok (.inspect 0 .chroma) ∧ decode 0x80040000#32 = .ok (.psnr 0 1)
    ∧ decode 0x82408000#32 = .ok (.artmap 2 0 1)

/-! ## The frame of a step -/

/-- A step whose host action writes a command word to `CMD` on a block that is not halted runs the decoded command: `exec`
of it on the state with that action taken, the write accepted and BUSY set (R34, R121). That the word is the low 32 bits of
the container is R25's truncation as the model reads it (log 20); script and response are the model's host side (log 7). -/
def Obligations.StepRunsTheDecodedCommand : Prop :=
  ∀ (s : State) (v : Container) (rest : List HostAction) (i : Instr),
    s.script = .regWrite 0x04#8 v :: rest → s.status.fault = false → decode (v.setWidth 32) = .ok i →
    step s = exec i { s with script := rest, response := .done, status := { s.status with busy := true } }

/-- A word that is no command raises `ILLEGAL_CMD` with `FCMD` the word, and changes nothing else of the block (R92, R305). That
the word is the low 32 bits of the container is R25's truncation as the model reads it (log 20). -/
def Obligations.UndecodableWordRaisesIllegalCmd : Prop :=
  ∀ (s : State) (v : Container) (rest : List HostAction) (e : DecodeError),
    s.script = .regWrite 0x04#8 v :: rest → s.status.fault = false → decode (v.setWidth 32) = .error e →
    step s = .next { s with
      script := rest
      response := .done
      status := { s.status with fault := true, fcode := 1#4, busy := false }
      fcmd := v.setWidth 32 }

/-- While `FAULT` is set a write to `CMD` is accepted and has no effect on the block (R34, R306). -/
def Obligations.HaltedBlockIgnoresCommands : Prop :=
  ∀ (s : State) (v : Container) (rest : List HostAction),
    s.script = .regWrite 0x04#8 v :: rest → s.status.fault = true →
    step s = .next { s with script := rest, response := .done }

/-- R305 and the codes of R301: raising a fault writes FAULT, FCODE, BUSY and FCMD and nothing else. -/
def Obligations.RaiseWritesOnlyFaultFields : Prop :=
  (∀ (s : State) (w : Word) (f : FaultCode),
    s.raise w f = { s with status := { s.status with fault := true, fcode := f.code, busy := false }, fcmd := w })
  ∧ FaultCode.illegalCmd.code = 1#4 ∧ FaultCode.uninit.code = 2#4 ∧ FaultCode.badConfig.code = 3#4
  ∧ FaultCode.badDims.code = 4#4 ∧ FaultCode.bounds.code = 5#4 ∧ FaultCode.badArg.code = 6#4
  ∧ FaultCode.shape.code = 7#4 ∧ FaultCode.aliasing.code = 8#4 ∧ FaultCode.noWindow.code = 9#4

/-- Every step keeps the invariant: memory canonical and inside plane memory, every valid descriptor with positive dimensions
and a region inside plane memory, fault fields in agreement, tables ≥ 1 under a valid configuration, BUSY clear (R23,
R24, R31, R32, R68). The canonical form is the model's own (log 9). -/
def Obligations.EveryStepKeepsTheInvariant : Prop :=
  ∀ s t : State, s.Inv → step s = .next t → t.Inv

/-- The state after reset meets the invariant (R340). -/
def Obligations.ResetMeetsTheInvariant : Prop := State.reset.Inv

/-- From every state that meets the invariant the machine goes on: no step ends in a fault or a refusal of the model.
Whatever the host does, and whatever faults a command raises inside the block, there is a next state (R92: decoding is
total; R68: no access leaves plane memory). That a refused access of the host is a next state is the model's (log 8), and
that a step with no action to take leaves the state as it is (log 7). -/
def Obligations.StepAlwaysAnswersNext : Prop :=
  ∀ s : State, s.Inv → ∃ t, step s = .next t

/-- R121, R305: a command either raises one fault, with its own word and every other piece of state untouched, or completes,
with CMDCNT one more, BUSY clear and the fault fields as they were. -/
def Obligations.CommandsFaultPreciselyOrComplete : Prop :=
  ∀ (i : Instr) (s t : State), exec i s = .next t →
    (∃ f : FaultCode, t = s.raise (encode i) f)
    ∨ (t.cmdcnt = s.cmdcnt + 1 ∧ t.fcmd = s.fcmd ∧ t.status.fault = s.status.fault ∧ t.status.fcode = s.status.fcode
      ∧ t.status.busy = false)

/-- R306: a halted block leaves the halt only by the reset input or a write of 1 to `SRST`; every other host action leaves
FAULT, FCODE, the first faulting word in FCMD, CMDCNT, the register files, tables and results as they are. -/
def Obligations.HaltEndsOnlyByReset : Prop :=
  ∀ s t : State, s.status.fault = true → step s = .next t →
    (∃ rest, s.script = .resetInput :: rest)
    ∨ (∃ v rest, s.script = .regWrite 0x05#8 v :: rest ∧ v.getLsbD 0 = true)
    ∨ (t.status = s.status ∧ t.fcmd = s.fcmd ∧ t.cmdcnt = s.cmdcnt ∧ t.grids = s.grids ∧ t.gvalid = s.gvalid
      ∧ t.descs = s.descs ∧ t.dvalid = s.dvalid ∧ t.qtLuma = s.qtLuma ∧ t.qtChroma = s.qtChroma ∧ t.res0 = s.res0
      ∧ t.res1 = s.res1)

/-! ## What commands leave alone -/

/-- R39, R40, R346: a step changes the active configuration, the scales or the tables only if its host action issues `CONFIG`
or resets the block. -/
def Obligations.OnlyConfigChangesTheActiveConfiguration : Prop :=
  ∀ s t : State, step s = .next t →
    (t.cfg = s.cfg ∧ t.qactive = s.qactive ∧ t.scale = s.scale ∧ t.basestep = s.basestep ∧ t.qtLuma = s.qtLuma
      ∧ t.qtChroma = s.qtChroma ∧ t.status.cfgv = s.status.cfgv)
    ∨ (∃ v rest, s.script = .regWrite 0x04#8 v :: rest ∧ decode (v.setWidth 32) = .ok .config)
    ∨ (∃ rest, s.script = .resetInput :: rest)
    ∨ (∃ v rest, s.script = .regWrite 0x05#8 v :: rest ∧ v.getLsbD 0 = true)

/-- R37, R38, R41, R42, R43, R23: no command writes `A0..A3`, `QUALITY`, `CFGSTAGE` or `GAIN`; only `DWT.LEV` writes `LEVELS`;
only `DSET` writes a descriptor or its valid bit. -/
def Obligations.CommandsLeaveHostRegisters : Prop :=
  ∀ (i : Instr) (s t : State), exec i s = .next t →
    t.a0 = s.a0 ∧ t.a1 = s.a1 ∧ t.a2 = s.a2 ∧ t.a3 = s.a3 ∧ t.quality = s.quality ∧ t.cfgstage = s.cfgstage
    ∧ t.gain = s.gain ∧ ((∀ ds, i ≠ .dwtLev ds) → t.levels = s.levels)
    ∧ ((∀ dd, i ≠ .dset dd) → t.descs = s.descs ∧ t.dvalid = s.dvalid)

/-- R31, R44: only `PSNR`, `SSIM` and `ARTMAP` write MISMATCH; only `PSNR`, `SSIM`, `BITS.BLK` and `BITS.PLN` write RES0; only
`PSNR` and `SSIM` write RES1. -/
def Obligations.OnlyMetricCommandsWriteResults : Prop :=
  ∀ (i : Instr) (s t : State), exec i s = .next t →
    (match i with
      | .psnr .. | .ssim .. | .artmap .. => True
      | _ => t.status.mismatch = s.status.mismatch)
    ∧ (match i with
      | .psnr .. | .ssim .. | .bitsBlk .. | .bitsPln .. => True
      | _ => t.res0 = s.res0)
    ∧ (match i with
      | .psnr .. | .ssim .. => True
      | _ => t.res1 = s.res1)

/-- R77: a command outside the list of writers leaves plane memory as it was; one outside both lists touches registers only,
and what it does does not depend on plane memory. -/
def Obligations.RegisterCommandsIgnoreMemory : Prop :=
  ∀ (i : Instr) (s t : State), exec i s = .next t → writesMemory i = false →
    t.mem = s.mem
    ∧ (readsMemory i s.cfg = false → ∀ m : Memory, exec i { s with mem := m } = .next { t with mem := m })

/-- R36: no command clears a valid bit. -/
def Obligations.CommandsKeepValidBits : Prop :=
  ∀ (i : Instr) (s t : State) (n : RegNum), exec i s = .next t →
    (s.gridValid n = true → t.gridValid n = true) ∧ (s.descValid n = true → t.descValid n = true)

/-! ## The host's ports and reset -/

/-- R25, R30 to R46: what `RegRead` answers at every index that has a readable register. That an answer stands in `response`
is the model's (log 7, log 8). -/
def Obligations.RegisterReadsGiveContainers : Prop :=
  ∀ (s : State) (i : BitVec 8) (rest : List HostAction),
    (s.script = .regRead i :: rest → step s = .next { s with
      script := rest
      response := match s.regRead i with
        | some v => .value v
        | none => .refused })
    ∧ s.regRead 0x00#8 = some 0x43445031#64
    ∧ s.regRead 0x01#8 = some (0#56 ++ s.status.fcode ++ BitVec.ofBool s.status.mismatch ++ BitVec.ofBool s.status.cfgv
        ++ BitVec.ofBool s.status.fault ++ BitVec.ofBool s.status.busy)
    ∧ s.regRead 0x02#8 = some (s.fcmd.setWidth 64) ∧ s.regRead 0x03#8 = some (s.cmdcnt.setWidth 64)
    ∧ s.regRead 0x06#8 = some (s.gvalid.setWidth 64) ∧ s.regRead 0x07#8 = some (s.dvalid.setWidth 64)
    ∧ s.regRead 0x08#8 = some (s.cfgstage.setWidth 64) ∧ s.regRead 0x09#8 = some s.quality
    ∧ s.regRead 0x0A#8 = some (s.cfg.setWidth 64) ∧ s.regRead 0x0B#8 = some s.qactive
    ∧ s.regRead 0x0C#8 = some s.scale ∧ s.regRead 0x0D#8 = some s.basestep ∧ s.regRead 0x0E#8 = some s.gain
    ∧ s.regRead 0x0F#8 = some (s.levels.setWidth 64) ∧ s.regRead 0x10#8 = some (s.a0.setWidth 64)
    ∧ s.regRead 0x11#8 = some (s.a1.setWidth 64) ∧ s.regRead 0x12#8 = some (s.a2.setWidth 64)
    ∧ s.regRead 0x13#8 = some (s.a3.setWidth 64) ∧ s.regRead 0x18#8 = some s.res0 ∧ s.regRead 0x19#8 = some s.res1
    ∧ ∀ n : RegNum,
      (s.descValid n = true →
        s.regRead (BitVec.ofNat 8 (0x40 + 4 * n.val)) = some ((s.desc n).base.setWidth 64)
        ∧ s.regRead (BitVec.ofNat 8 (0x41 + 4 * n.val)) = some ((s.desc n).w.setWidth 64)
        ∧ s.regRead (BitVec.ofNat 8 (0x42 + 4 * n.val)) = some ((s.desc n).h.setWidth 64)
        ∧ s.regRead (BitVec.ofNat 8 (0x43 + 4 * n.val)) = some ((s.desc n).c.setWidth 64))
      ∧ (s.descValid n = false → ∀ k, k < 4 → s.regRead (BitVec.ofNat 8 (0x40 + 4 * n.val + k)) = some 0#64)

/-- R25: a write to a read-write register keeps the named low bits, discards the rest and changes nothing else. -/
def Obligations.RegisterWritesKeepNamedBits : Prop :=
  ∀ (s : State) (v : Container) (rest : List HostAction),
    let u : State := { s with script := rest, response := .done }
    (s.script = .regWrite 0x08#8 v :: rest → step s = .next { u with cfgstage := v.setWidth 4 })
    ∧ (s.script = .regWrite 0x09#8 v :: rest → step s = .next { u with quality := v })
    ∧ (s.script = .regWrite 0x0E#8 v :: rest → step s = .next { u with gain := v })
    ∧ (s.script = .regWrite 0x0F#8 v :: rest → step s = .next { u with levels := v.setWidth 3 })
    ∧ (s.script = .regWrite 0x10#8 v :: rest → step s = .next { u with a0 := v.setWidth 32 })
    ∧ (s.script = .regWrite 0x11#8 v :: rest → step s = .next { u with a1 := v.setWidth 32 })
    ∧ (s.script = .regWrite 0x12#8 v :: rest → step s = .next { u with a2 := v.setWidth 32 })
    ∧ (s.script = .regWrite 0x13#8 v :: rest → step s = .next { u with a3 := v.setWidth 32 })

/-- R25: reading an index with no register or a write-only register, and writing an index with no register or a read-only
register, gets the error response and changes nothing. That the error response is a next state is the model's (log 8). -/
def Obligations.RegisterErrorsChangeNothing : Prop :=
  ∀ (s : State) (i : BitVec 8) (v : Container) (rest : List HostAction),
    (s.script = .regRead i :: rest →
      (i.toNat = 0x04 ∨ i.toNat = 0x05 ∨ (0x14 ≤ i.toNat ∧ i.toNat ≤ 0x17) ∨ (0x1A ≤ i.toNat ∧ i.toNat ≤ 0x3F)
        ∨ 0x60 ≤ i.toNat) →
      step s = .next { s with script := rest, response := .refused })
    ∧ (s.script = .regWrite i v :: rest →
      (i.toNat ≤ 0x03 ∨ i.toNat = 0x06 ∨ i.toNat = 0x07 ∨ (0x0A ≤ i.toNat ∧ i.toNat ≤ 0x0D) ∨ 0x14 ≤ i.toNat) →
      step s = .next { s with script := rest, response := .refused })

/-- R61: the memory port reads and writes one sample; an address at or beyond `MEM_SAMPLES` gets the error response and
changes nothing. A write changes no other address. That the error response is a next state is the model's (log 8). -/
def Obligations.MemoryPortReadsAndWrites : Prop :=
  ∀ (s : State) (a : BitVec 32) (v : Sample) (rest : List HostAction),
    (s.script = .memRead a :: rest → step s = .next { s with
      script := rest
      response := if a.toNat < s.memSamples then .value (s.memRead a.toNat) else .refused })
    ∧ (s.script = .memWrite a v :: rest →
      if a.toNat < s.memSamples then
        ∃ t, step s = .next t ∧ t = { s with script := rest, response := .done, mem := t.mem }
          ∧ t.memRead a.toNat = v ∧ ∀ b, b ≠ a.toNat → t.memRead b = s.memRead b
      else step s = .next { s with script := rest, response := .refused })

/-- R340, R35: the reset input and a write of 1 to bit 0 of `SRST` give every register its reset value and leave plane memory;
a write of 0 to it has no effect. `0x4014000000000000` is 5.0. -/
def Obligations.ResetRestoresRegisters : Prop :=
  ∀ (s : State) (v : Container) (rest : List HostAction),
    (s.script = .regWrite 0x05#8 v :: rest → v.getLsbD 0 = false →
      step s = .next { s with script := rest, response := .done })
    ∧ (s.script = .resetInput :: rest ∨ (s.script = .regWrite 0x05#8 v :: rest ∧ v.getLsbD 0 = true) →
      ∃ t, step s = .next t ∧ t.script = rest
        ∧ t.status = { busy := false, fault := false, cfgv := false, mismatch := false, fcode := 0 }
        ∧ t.fcmd = 0 ∧ t.cmdcnt = 0 ∧ t.gvalid = 0 ∧ t.dvalid = 0
        ∧ (∀ n, t.desc n = { base := 0, w := 0, h := 0, c := 0 })
        ∧ t.cfgstage = 0 ∧ t.quality = 0#64 ∧ t.cfg = 0 ∧ t.qactive = 0#64 ∧ t.scale = 0#64 ∧ t.basestep = 0#64
        ∧ t.gain = 0x4014000000000000#64 ∧ t.levels = 0 ∧ t.a0 = 0 ∧ t.a1 = 0 ∧ t.a2 = 0 ∧ t.a3 = 0 ∧ t.res0 = 0#64
        ∧ t.res1 = 0#64 ∧ t.mem = s.mem ∧ t.memTop = s.memTop)

/-- R48: the registers of the machine right after reset; `0x4014000000000000` is 5.0. -/
def Obligations.ResetStateValues : Prop :=
  State.reset.status.word = 0 ∧ State.reset.fcmd = 0 ∧ State.reset.cmdcnt = 0 ∧ State.reset.gvalid = 0
    ∧ State.reset.dvalid = 0 ∧ State.reset.cfgstage = 0 ∧ State.reset.quality = 0#64 ∧ State.reset.cfg = 0
    ∧ State.reset.qactive = 0#64 ∧ State.reset.scale = 0#64 ∧ State.reset.basestep = 0#64
    ∧ State.reset.gain = 0x4014000000000000#64 ∧ State.reset.levels = 0 ∧ State.reset.a0 = 0 ∧ State.reset.a1 = 0
    ∧ State.reset.a2 = 0 ∧ State.reset.a3 = 0 ∧ State.reset.res0 = 0#64 ∧ State.reset.res1 = 0#64
    ∧ ∀ n, State.reset.desc n = { base := 0, w := 0, h := 0, c := 0 }

/-! ## System and data movement -/

/-- R120: `NOP` completes and only counts; its opcode with any of bits 23:0 set is no command. -/
def Obligations.NopOnlyCounts : Prop :=
  decode 0x00000000#32 = .ok .nop
  ∧ (∀ w : Word, w >>> 24 = 0 → w ≠ 0 → decode w = .error .mustBeZero)
  ∧ ∀ s : State, exec .nop s = .next s.complete
    ∧ s.complete = { s with
      cmdcnt := s.cmdcnt + 1
      status := { s.status with busy := false }
      freeCount := s.complete.freeCount }

/-- R203 with R200, R202 and R210: `CONFIG` rejects a quality that is not finite or not positive and the reserved chroma mode;
else it completes with the active configuration, the scale, the base step and both tables of the staged quality. The base
tables are the defaults that R201 supplies from general knowledge (log 15). -/
def Obligations.ConfigDerivesTables : Prop :=
  ∀ s : State,
    decode 0x01000000#32 = .ok .config
    ∧ if Binary64.isFinite s.quality = false ∨ Binary64.le s.quality 0#64 = true then Raises .config s .badConfig
      else if s.cfgstage.extractLsb' 1 2 = 3#2 then Raises .config s .badConfig
      else
        let N := Binary64.num
        let x := N.div
          (if N.lt s.quality (N.ofInt 50) = true then N.div (N.ofInt 5000) s.quality
            else N.sub (N.ofInt 200) (N.mul (N.ofInt 2) s.quality)) (N.ofInt 100)
        ∃ t, exec .config s = .next t
          ∧ t = { s.complete with
              cfg := s.cfgstage
              qactive := s.quality
              scale := t.scale
              basestep := t.basestep
              qtLuma := t.qtLuma
              qtChroma := t.qtChroma
              status := { s.complete.status with cfgv := true } }
          ∧ sameSample t.scale x ∧ sameSample t.basestep (N.mul (N.ofInt 32) x)
          ∧ ∀ (sel : TableSel) (i j : Nat), i < 8 → j < 8 →
            gridAt (t.table sel) i j = N.max (N.ofInt 1) (N.rnd (N.mul (N.ofInt (baseEntry sel i j)) x))

/-- R122: `DSET` rejects a dimension of zero or above its field and a region beyond `MEM_SAMPLES`; else it completes with
descriptor dd built from `A0..A3` and valid, and nothing else written. -/
def Obligations.DsetBuildsDescriptor : Prop :=
  ∀ (dd : RegNum) (s : State),
    decode (commandWord 0x02#8 dd 0 0 0) = .ok (.dset dd)
    ∧ if s.a1 = 0 ∨ s.a2 = 0 ∨ s.a3 = 0 ∨ 65535 < s.a1.toNat ∨ 65535 < s.a2.toNat ∨ 255 < s.a3.toNat then
        Raises (.dset dd) s .badDims
      else if s.memSamples < s.a0.toNat + s.a1.toNat * s.a2.toNat * s.a3.toNat then Raises (.dset dd) s .bounds
      else ∃ t, exec (.dset dd) s = .next t
        ∧ t = { s.complete with descs := t.descs, dvalid := s.dvalid ||| 1#8 <<< dd.val }
        ∧ t.descValid dd = true
        ∧ (t.desc dd).base = s.a0 ∧ (t.desc dd).w.toNat = s.a1.toNat ∧ (t.desc dd).h.toNat = s.a2.toNat
        ∧ (t.desc dd).c.toNat = s.a3.toNat
        ∧ ∀ m, m ≠ dd → t.desc m = s.desc m

/-- R123: `GLD` loads the block at (`A0`, `A1`) of channel `A2`, zero past the image's edge, into grid gd and completes. -/
def Obligations.GldLoadsPaddedBlock : Prop :=
  ∀ (gd ds : RegNum) (s : State),
    let D := s.desc ds
    let row (i : Nat) : Nat := 8 * s.a1.toNat + i
    let col (j : Nat) : Nat := 8 * s.a0.toNat + j
    decode (commandWord 0x10#8 gd ds 0 0) = .ok (.gld gd ds)
    ∧ if s.descValid ds = false then Raises (.gld gd ds) s .uninit
      else if D.c.toNat ≤ s.a2.toNat then Raises (.gld gd ds) s .badArg
      else if D.w.toNat ≤ 8 * s.a0.toNat ∨ D.h.toNat ≤ 8 * s.a1.toNat then Raises (.gld gd ds) s .badArg
      else D.legal s.memSamples = true →
        ∃ t, exec (.gld gd ds) s = .next t ∧ OnlyGrid s t gd
          ∧ ((∀ i j, i < 8 → j < 8 → row i < D.h.toNat → col j < D.w.toNat →
                Binary64.isFinite (s.memRead (D.idx (row i) (col j) s.a2.toNat)) = true) →
              ∀ i j, i < 8 → j < 8 → gridAt (t.grid gd) i j =
                if row i < D.h.toNat ∧ col j < D.w.toNat then s.memRead (D.idx (row i) (col j) s.a2.toNat) else 0#64)

/-- R124: `GST` stores grid gs into the block at (`A0`, `A1`) of channel `A2`, clipped at the image's edge, and completes;
every address but those of the stored samples reads as before. The inputs for R10 are the stored elements (log 3). -/
def Obligations.GstStoresClippedBlock : Prop :=
  ∀ (dd gs : RegNum) (s : State),
    let D := s.desc dd
    let row (i : Nat) : Nat := 8 * s.a1.toNat + i
    let col (j : Nat) : Nat := 8 * s.a0.toNat + j
    decode (commandWord 0x11#8 dd gs 0 0) = .ok (.gst dd gs)
    ∧ if s.descValid dd = false then Raises (.gst dd gs) s .uninit
      else if s.gridValid gs = false then Raises (.gst dd gs) s .uninit
      else if D.c.toNat ≤ s.a2.toNat then Raises (.gst dd gs) s .badArg
      else if D.w.toNat ≤ 8 * s.a0.toNat ∨ D.h.toNat ≤ 8 * s.a1.toNat then Raises (.gst dd gs) s .badArg
      else D.legal s.memSamples = true →
        ∃ t, exec (.gst dd gs) s = .next t ∧ OnlyMemory s t
          ∧ (∀ a, (∀ i j, i < 8 → j < 8 → row i < D.h.toNat → col j < D.w.toNat →
                a ≠ D.idx (row i) (col j) s.a2.toNat) → t.memRead a = s.memRead a)
          ∧ ((∀ i j, i < 8 → j < 8 → row i < D.h.toNat → col j < D.w.toNat →
                Binary64.isFinite (gridAt (s.grid gs) i j) = true) →
              ∀ i j, i < 8 → j < 8 → row i < D.h.toNat → col j < D.w.toNat →
              t.memRead (D.idx (row i) (col j) s.a2.toNat) = gridAt (s.grid gs) i j)

/-- R125, R126, R127: `GMOV` copies a valid grid, `GZERO` writes the all-zero grid, `GQT` copies table t under a valid
configuration; each completes with grid gd written and nothing else. -/
def Obligations.GridMovesFillOneGrid : Prop :=
  ∀ (gd gs : RegNum) (sel : TableSel) (s : State),
    decode (commandWord 0x12#8 gd gs 0 0) = .ok (.gmov gd gs)
    ∧ decode (commandWord 0x13#8 gd 0 0 0) = .ok (.gzero gd)
    ∧ decode (commandWord 0x14#8 gd 0 0 (selectorField sel)) = .ok (.gqt gd sel)
    ∧ (if s.gridValid gs = false then Raises (.gmov gd gs) s .uninit
      else ∃ t, exec (.gmov gd gs) s = .next t ∧ OnlyGrid s t gd
        ∧ (FiniteGrid (s.grid gs) → t.grid gd = s.grid gs))
    ∧ (∃ t, exec (.gzero gd) s = .next t ∧ OnlyGrid s t gd ∧ ∀ i j, i < 8 → j < 8 → gridAt (t.grid gd) i j = 0#64)
    ∧ (if s.status.cfgv = false then Raises (.gqt gd sel) s .uninit
      else ∃ t, exec (.gqt gd sel) s = .next t ∧ OnlyGrid s t gd
        ∧ (FiniteGrid (s.table sel) → t.grid gd = s.table sel))

/-- R128: `SPLIT` writes channel `A2` of image ds to plane dd and completes. -/
def Obligations.SplitExtractsChannel : Prop :=
  ∀ (dd ds : RegNum) (s : State),
    let Dd := s.desc dd
    let Ds := s.desc ds
    decode (commandWord 0x18#8 dd ds 0 0) = .ok (.split dd ds)
    ∧ if s.descValid dd = false ∨ s.descValid ds = false then Raises (.split dd ds) s .uninit
      else if Dd.c ≠ 1 ∨ Dd.w ≠ Ds.w ∨ Dd.h ≠ Ds.h then Raises (.split dd ds) s .shape
      else if Ds.c.toNat ≤ s.a2.toNat then Raises (.split dd ds) s .badArg
      else if Dd.meets Ds = true then Raises (.split dd ds) s .aliasing
      else Dd.legal s.memSamples = true → Ds.legal s.memSamples = true →
        ∃ t, exec (.split dd ds) s = .next t ∧ OnlyMemory s t ∧ OutsideUnchanged Dd s t
          ∧ (s.finiteChannel Ds s.a2.toNat → ∀ row col, row < Ds.h.toNat → col < Ds.w.toNat →
              t.memRead (Dd.idx row col 0) = s.memRead (Ds.idx row col s.a2.toNat))

/-- R129: `MERGE` writes plane ds into channel `A2` of image dd and completes; the other channels of dd keep their values. -/
def Obligations.MergeWritesOneChannel : Prop :=
  ∀ (dd ds : RegNum) (s : State),
    let Dd := s.desc dd
    let Ds := s.desc ds
    decode (commandWord 0x19#8 dd ds 0 0) = .ok (.merge dd ds)
    ∧ if s.descValid dd = false ∨ s.descValid ds = false then Raises (.merge dd ds) s .uninit
      else if Ds.c ≠ 1 ∨ Dd.w ≠ Ds.w ∨ Dd.h ≠ Ds.h then Raises (.merge dd ds) s .shape
      else if Dd.c.toNat ≤ s.a2.toNat then Raises (.merge dd ds) s .badArg
      else if Dd.meets Ds = true then Raises (.merge dd ds) s .aliasing
      else Dd.legal s.memSamples = true → Ds.legal s.memSamples = true →
        ∃ t, exec (.merge dd ds) s = .next t ∧ OnlyMemory s t
          ∧ (∀ a, (∀ row col, row < Dd.h.toNat → col < Dd.w.toNat → a ≠ Dd.idx row col s.a2.toNat) →
              t.memRead a = s.memRead a)
          ∧ (s.finiteChannel Ds 0 → ∀ row col, row < Ds.h.toNat → col < Ds.w.toNat →
              t.memRead (Dd.idx row col s.a2.toNat) = s.memRead (Ds.idx row col 0))

/-- R130: `COPY` copies image ds to image dd of the same shape and completes. -/
def Obligations.CopyCopiesImage : Prop :=
  ∀ (dd ds : RegNum) (s : State),
    let Dd := s.desc dd
    let Ds := s.desc ds
    decode (commandWord 0x1A#8 dd ds 0 0) = .ok (.copy dd ds)
    ∧ if s.descValid dd = false ∨ s.descValid ds = false then Raises (.copy dd ds) s .uninit
      else if Dd.w ≠ Ds.w ∨ Dd.h ≠ Ds.h ∨ Dd.c ≠ Ds.c then Raises (.copy dd ds) s .shape
      else if Dd.meets Ds = true then Raises (.copy dd ds) s .aliasing
      else Dd.legal s.memSamples = true → Ds.legal s.memSamples = true →
        ∃ t, exec (.copy dd ds) s = .next t ∧ OnlyMemory s t ∧ OutsideUnchanged Dd s t
          ∧ (s.finiteImage Ds → ∀ k, k < Ds.w.toNat * Ds.h.toNat * Ds.c.toNat →
              t.memRead (Dd.base.toNat + k) = s.memRead (Ds.base.toNat + k))

/-! ## Colour -/

/-- R151: `CSC.F` turns every pixel (B, G, R) of image ds into (Y, Cr, Cb) of image dd, unclamped, and completes. -/
def Obligations.CscForwardConvertsPixels : Prop :=
  ∀ (dd ds : RegNum) (s : State),
    let Dd := s.desc dd
    let Ds := s.desc ds
    let N := Binary64.num
    decode (commandWord 0x20#8 dd ds 0 0) = .ok (.cscF dd ds)
    ∧ if s.descValid dd = false ∨ s.descValid ds = false then Raises (.cscF dd ds) s .uninit
      else if Ds.c ≠ 3 ∨ Dd.c ≠ 3 ∨ Dd.w ≠ Ds.w ∨ Dd.h ≠ Ds.h then Raises (.cscF dd ds) s .shape
      else if Dd.meets Ds = true then Raises (.cscF dd ds) s .aliasing
      else Dd.legal s.memSamples = true → Ds.legal s.memSamples = true →
        ∃ t, exec (.cscF dd ds) s = .next t ∧ OnlyMemory s t ∧ OutsideUnchanged Dd s t
          ∧ (s.finiteImage Ds → ∀ row col, row < Ds.h.toNat → col < Ds.w.toNat →
              let b := s.memRead (Ds.idx row col 0)
              let g := s.memRead (Ds.idx row col 1)
              let r := s.memRead (Ds.idx row col 2)
              let y := N.add (N.add (N.mul (N.ofDec 299 3) r) (N.mul (N.ofDec 587 3) g)) (N.mul (N.ofDec 114 3) b)
              sameSample (t.memRead (Dd.idx row col 0)) y
              ∧ sameSample (t.memRead (Dd.idx row col 1)) (N.add (N.mul (N.sub r y) (N.ofDec 713 3)) (N.ofInt 128))
              ∧ sameSample (t.memRead (Dd.idx row col 2)) (N.add (N.mul (N.sub b y) (N.ofDec 564 3)) (N.ofInt 128)))

/-- R152: `CSC.I` turns every pixel (Y, Cr, Cb) of image ds into (B, G, R) of image dd, each clamped to [0, 255], and
completes. -/
def Obligations.CscInverseConvertsAndClamps : Prop :=
  ∀ (dd ds : RegNum) (s : State),
    let Dd := s.desc dd
    let Ds := s.desc ds
    let N := Binary64.num
    let clamp (v : Sample) : Sample := N.min (N.ofInt 255) (N.max (N.ofInt 0) v)
    decode (commandWord 0x21#8 dd ds 0 0) = .ok (.cscI dd ds)
    ∧ if s.descValid dd = false ∨ s.descValid ds = false then Raises (.cscI dd ds) s .uninit
      else if Ds.c ≠ 3 ∨ Dd.c ≠ 3 ∨ Dd.w ≠ Ds.w ∨ Dd.h ≠ Ds.h then Raises (.cscI dd ds) s .shape
      else if Dd.meets Ds = true then Raises (.cscI dd ds) s .aliasing
      else Dd.legal s.memSamples = true → Ds.legal s.memSamples = true →
        ∃ t, exec (.cscI dd ds) s = .next t ∧ OnlyMemory s t ∧ OutsideUnchanged Dd s t
          ∧ (s.finiteImage Ds → ∀ row col, row < Ds.h.toNat → col < Ds.w.toNat →
              let y := s.memRead (Ds.idx row col 0)
              let cr := s.memRead (Ds.idx row col 1)
              let cb := s.memRead (Ds.idx row col 2)
              let r := N.add y (N.mul (N.ofDec 1402 3) (N.sub cr (N.ofInt 128)))
              let g := N.sub (N.sub y (N.mul (N.ofDec 344136 6) (N.sub cb (N.ofInt 128))))
                (N.mul (N.ofDec 714136 6) (N.sub cr (N.ofInt 128)))
              let b := N.add y (N.mul (N.ofDec 1772 3) (N.sub cb (N.ofInt 128)))
              sameSample (t.memRead (Dd.idx row col 0)) (clamp b)
              ∧ sameSample (t.memRead (Dd.idx row col 1)) (clamp g)
              ∧ sameSample (t.memRead (Dd.idx row col 2)) (clamp r))

/-! ## Block transforms -/

/-- R162: `DCT.F` writes the forward 8×8 DCT of grid gs, by the rule's loops, to grid gd and completes. The order of the sum
and the association are the spec's default, which the model takes (log 16). -/
def Obligations.DctForwardComputesLoops : Prop :=
  ∀ (gd gs : RegNum) (s : State),
    let N := Binary64.num
    let c (k : Nat) : Sample := if k = 0 then N.invSqrt2 else N.ofInt 1
    decode (commandWord 0x30#8 gd gs 0 0) = .ok (.dctF gd gs)
    ∧ if s.gridValid gs = false then Raises (.dctF gd gs) s .uninit
      else ∃ t, exec (.dctF gd gs) s = .next t ∧ OnlyGrid s t gd
        ∧ (FiniteGrid (s.grid gs) → ∀ u v, u < 8 → v < 8 →
            let sum := (List.range 8).foldl (fun acc x => (List.range 8).foldl (fun acc y =>
              N.add acc (N.mul (N.mul (gridAt (s.grid gs) x y) (cosAt N x u)) (cosAt N y v))) acc) (N.ofInt 0)
            sameSample (gridAt (t.grid gd) u v) (N.mul (N.mul (N.mul (N.ofDec 25 2) (c u)) (c v)) sum))

/-- R163: `DCT.I` writes the inverse 8×8 DCT of grid gs, by the rule's loops, to grid gd and completes. The order of the sum
and the association are the spec's default, which the model takes (log 16). -/
def Obligations.DctInverseComputesLoops : Prop :=
  ∀ (gd gs : RegNum) (s : State),
    let N := Binary64.num
    let c (k : Nat) : Sample := if k = 0 then N.invSqrt2 else N.ofInt 1
    decode (commandWord 0x31#8 gd gs 0 0) = .ok (.dctI gd gs)
    ∧ if s.gridValid gs = false then Raises (.dctI gd gs) s .uninit
      else ∃ t, exec (.dctI gd gs) s = .next t ∧ OnlyGrid s t gd
        ∧ (FiniteGrid (s.grid gs) → ∀ x y, x < 8 → y < 8 →
            let sum := (List.range 8).foldl (fun acc u => (List.range 8).foldl (fun acc v =>
              N.add acc (N.mul (N.mul (N.mul (N.mul (c u) (c v)) (gridAt (s.grid gs) u v)) (cosAt N x u)) (cosAt N y v)))
              acc) (N.ofInt 0)
            sameSample (gridAt (t.grid gd) x y) (N.mul (N.ofDec 25 2) sum))

/-- R170, R171, R174, R175: whatever the numbers are, the line pair is averages then details and back, and the block transform
is a row pass and a column pass over the top-left 8, 4 and 2, undone by column and row passes over 2, 4 and 8. `HAAR8.F` and
`HAAR8.I` write it, and its inverse, of grid gs to grid gd and complete. -/
def Obligations.Haar8TransformsGrid : Prop :=
  (∀ (S : Type) (N : Num S) (n k : Nat) (x : Nat → S), n % 2 = 0 → k < n / 2 →
    haarLineForward N n x k = N.div (N.add (x (2 * k)) (x (2 * k + 1))) N.sqrt2
    ∧ haarLineForward N n x (n / 2 + k) = N.div (N.sub (x (2 * k)) (x (2 * k + 1))) N.sqrt2
    ∧ haarLineInverse N n x (2 * k) = N.div (N.add (x k) (x (n / 2 + k))) N.sqrt2
    ∧ haarLineInverse N n x (2 * k + 1) = N.div (N.sub (x k) (x (n / 2 + k))) N.sqrt2)
  ∧ (∀ (S : Type) (N : Num S) (g : GridOf S) (i j : Nat), i < 8 → j < 8 →
    let rows (f : Nat → (Nat → S) → Nat → S) (n : Nat) (W : Nat → Nat → S) (r c : Nat) : S :=
      if r < n ∧ c < n then f n (W r) c else W r c
    let cols (f : Nat → (Nat → S) → Nat → S) (n : Nat) (W : Nat → Nat → S) (r c : Nat) : S :=
      if r < n ∧ c < n then f n (fun k => W k c) r else W r c
    let forth (n : Nat) (W : Nat → Nat → S) : Nat → Nat → S := cols (haarLineForward N) n (rows (haarLineForward N) n W)
    let back (n : Nat) (W : Nat → Nat → S) : Nat → Nat → S := rows (haarLineInverse N) n (cols (haarLineInverse N) n W)
    gridAt (haar8Forward N g) i j = forth 2 (forth 4 (forth 8 (gridAt g))) i j
    ∧ gridAt (haar8Inverse N g) i j = back 8 (back 4 (back 2 (gridAt g))) i j)
  ∧ ∀ (gd gs : RegNum) (s : State),
    decode (commandWord 0x40#8 gd gs 0 0) = .ok (.haar8F gd gs)
    ∧ decode (commandWord 0x41#8 gd gs 0 0) = .ok (.haar8I gd gs)
    ∧ if s.gridValid gs = false then Raises (.haar8F gd gs) s .uninit ∧ Raises (.haar8I gd gs) s .uninit
      else (∃ t, exec (.haar8F gd gs) s = .next t ∧ OnlyGrid s t gd
          ∧ (FiniteGrid (s.grid gs) → sameGrid (t.grid gd) (haar8Forward Binary64.num (s.grid gs))))
        ∧ ∃ t, exec (.haar8I gd gs) s = .next t ∧ OnlyGrid s t gd
          ∧ (FiniteGrid (s.grid gs) → sameGrid (t.grid gd) (haar8Inverse Binary64.num (s.grid gs)))

/-! ## The full-image wavelet -/

/-- R180: `DWT.LEV` completes with `LEVELS` the number of times both dimensions halve while they are at least 2, at most 6. -/
def Obligations.DwtLevCountsHalvings : Prop :=
  ∀ (ds : RegNum) (s : State),
    let w := (s.desc ds).w.toNat
    let h := (s.desc ds).h.toNat
    decode (commandWord 0x44#8 ds 0 0 0) = .ok (.dwtLev ds)
    ∧ if s.descValid ds = false then Raises (.dwtLev ds) s .uninit
      else ∃ t, exec (.dwtLev ds) s = .next t ∧ t = { s.complete with levels := t.levels }
        ∧ t.levels.toNat ≤ 6 ∧ (∀ k, k < t.levels.toNat → 2 ≤ w / 2 ^ k ∧ 2 ≤ h / 2 ^ k)
        ∧ (t.levels.toNat = 6 ∨ w / 2 ^ t.levels.toNat < 2 ∨ h / 2 ^ t.levels.toNat < 2)

/-- R182, R183 over the geometry of R173: whatever the numbers are, level l of the transform is a row pass and then a column
pass over R(l), after the levels below l, and the inverse undoes level l first, columns and then rows. `DWT.F` and `DWT.I`
write the transform of plane ds with `LEVELS` levels (R181), and its inverse, to plane dd and complete; samples outside R(0),
and all samples with `LEVELS = 0`, are copied. The line pair is that of `Haar8TransformsGrid`. -/
def Obligations.DwtTransformsPlane : Prop :=
  (∀ d l, levelDim d 0 = d ∧ levelEven d l = levelDim d l - levelDim d l % 2 ∧ levelDim d (l + 1) = levelEven d l / 2)
  ∧ (∀ (S : Type) (N : Num S) (w h l : Nat) (W : Plane S) (row col : Nat),
    let ew := levelEven w l
    let eh := levelEven h l
    let rows (f : Nat → (Nat → S) → Nat → S) (W : Nat → Nat → S) (r c : Nat) : S :=
      if r < eh ∧ c < ew then f ew (W r) c else W r c
    let cols (f : Nat → (Nat → S) → Nat → S) (W : Nat → Nat → S) (r c : Nat) : S :=
      if r < eh ∧ c < ew then f eh (fun k => W k c) r else W r c
    (dwtForward N w h 0 W).get row col = W.get row col ∧ (dwtInverse N w h 0 W).get row col = W.get row col
    ∧ (dwtForward N w h (l + 1) W).get row col
      = cols (haarLineForward N) (rows (haarLineForward N) (dwtForward N w h l W).get) row col
    ∧ (dwtInverse N w h (l + 1) W).get row col
      = (dwtInverse N w h l ⟨rows (haarLineInverse N) (cols (haarLineInverse N) W.get)⟩).get row col)
  ∧ ∀ (dd ds : RegNum) (s : State),
    let Dd := s.desc dd
    let Ds := s.desc ds
    let w := Ds.w.toNat
    let h := Ds.h.toNat
    let L := s.levels.toNat
    decode (commandWord 0x45#8 dd ds 0 0) = .ok (.dwtF dd ds)
    ∧ decode (commandWord 0x46#8 dd ds 0 0) = .ok (.dwtI dd ds)
    ∧ ∀ (cmd : Instr) (f : Nat → Nat → Nat → Plane Sample → Plane Sample),
      (cmd = .dwtF dd ds ∧ f = dwtForward Binary64.num) ∨ (cmd = .dwtI dd ds ∧ f = dwtInverse Binary64.num) →
      if s.descValid dd = false ∨ s.descValid ds = false then Raises cmd s .uninit
      else if Ds.c ≠ 1 ∨ Dd.c ≠ 1 ∨ Dd.w ≠ Ds.w ∨ Dd.h ≠ Ds.h then Raises cmd s .shape
      else if calcLevels w h < L then Raises cmd s .badArg
      else if Dd.meets Ds = true then Raises cmd s .aliasing
      else Dd.legal s.memSamples = true → Ds.legal s.memSamples = true →
        ∃ t, exec cmd s = .next t ∧ OnlyMemory s t ∧ OutsideUnchanged Dd s t
          ∧ (s.finiteChannel Ds 0 → ∀ row col, row < h → col < w →
              sameSample (t.memRead (Dd.idx row col 0))
                ((f w h L ⟨fun r c => s.memRead (Ds.idx r c 0)⟩).get row col)
              ∧ (L = 0 ∨ h - h % 2 ≤ row ∨ w - w % 2 ≤ col →
                t.memRead (Dd.idx row col 0) = s.memRead (Ds.idx row col 0)))

/-! ## Quantiser -/

/-- R205, R206: `Q.BLK` and `DQ.BLK` divide and round, and multiply, grid gs by table t into grid gd and complete; `CFG.QEN`
is not read. -/
def Obligations.TableQuantisersFillGrid : Prop :=
  ∀ (gd gs : RegNum) (sel : TableSel) (s : State),
    let N := Binary64.num
    decode (commandWord 0x50#8 gd gs 0 (selectorField sel)) = .ok (.qBlk gd gs sel)
    ∧ decode (commandWord 0x51#8 gd gs 0 (selectorField sel)) = .ok (.dqBlk gd gs sel)
    ∧ if s.gridValid gs = false ∨ s.status.cfgv = false then
        Raises (.qBlk gd gs sel) s .uninit ∧ Raises (.dqBlk gd gs sel) s .uninit
      else
        (∃ t, exec (.qBlk gd gs sel) s = .next t ∧ OnlyGrid s t gd
          ∧ (FiniteGrid (s.grid gs) → FiniteGrid (s.table sel) → ∀ i j, i < 8 → j < 8 →
              sameSample (gridAt (t.grid gd) i j)
                (N.rnd (N.div (gridAt (s.grid gs) i j) (gridAt (s.table sel) i j)))))
        ∧ ∃ t, exec (.dqBlk gd gs sel) s = .next t ∧ OnlyGrid s t gd
          ∧ (FiniteGrid (s.grid gs) → FiniteGrid (s.table sel) → ∀ i j, i < 8 → j < 8 →
              sameSample (gridAt (t.grid gd) i j) (N.mul (gridAt (s.grid gs) i j) (gridAt (s.table sel) i j)))

/-- R211 over the geometry of R173: the step of a position is `max(1, base / 2^L)` in the final LL, `max(1, base / 2^l)` for the
coarsest region R(l) that contains it otherwise, and `max(1, base)` outside R(0) and with no levels. The steps of the
positions the document does not classify are the default of the parameter `DWT_EDGE_STEP`, which the model takes (log 15). -/
def Obligations.DwtStepFollowsRegions : Prop :=
  ∀ (S : Type) (N : Num S) (x y w h L : Nat) (base : S),
    (∀ d l, levelDim d 0 = d ∧ levelEven d l = levelDim d l - levelDim d l % 2
      ∧ levelDim d (l + 1) = levelEven d l / 2)
    ∧ (1 ≤ L → x < levelDim w L → y < levelDim h L →
        dwtStep N x y w h L base = N.max (N.ofInt 1) (N.div base (N.pow2 L)))
    ∧ (¬ (x < levelDim w L ∧ y < levelDim h L) → ∀ l, l < L → x < levelEven w l → y < levelEven h l →
        (∀ k, l < k → k < L → ¬ (x < levelEven w k ∧ y < levelEven h k)) →
        dwtStep N x y w h L base = N.max (N.ofInt 1) (N.div base (N.pow2 l)))
    ∧ (L = 0 ∨ ¬ (x < levelEven w 0 ∧ y < levelEven h 0) → dwtStep N x y w h L base = N.max (N.ofInt 1) base)

/-- R212, R213: `QW.BLK` and `DQW.BLK` quantise and dequantise grid gs by the three-level subband steps of `BASESTEP` into grid
gd and complete; `LEVELS` is not read. -/
def Obligations.WaveletBlockQuantisersFillGrid : Prop :=
  ∀ (gd gs : RegNum) (s : State),
    let N := Binary64.num
    decode (commandWord 0x52#8 gd gs 0 0) = .ok (.qwBlk gd gs)
    ∧ decode (commandWord 0x53#8 gd gs 0 0) = .ok (.dqwBlk gd gs)
    ∧ if s.gridValid gs = false ∨ s.status.cfgv = false then
        Raises (.qwBlk gd gs) s .uninit ∧ Raises (.dqwBlk gd gs) s .uninit
      else
        (∃ t, exec (.qwBlk gd gs) s = .next t ∧ OnlyGrid s t gd
          ∧ (FiniteGrid (s.grid gs) → Binary64.isFinite s.basestep = true → ∀ i j, i < 8 → j < 8 →
              sameSample (gridAt (t.grid gd) i j)
                (N.rnd (N.div (gridAt (s.grid gs) i j) (dwtStep N j i 8 8 3 s.basestep)))))
        ∧ ∃ t, exec (.dqwBlk gd gs) s = .next t ∧ OnlyGrid s t gd
          ∧ (FiniteGrid (s.grid gs) → Binary64.isFinite s.basestep = true → ∀ i j, i < 8 → j < 8 →
              sameSample (gridAt (t.grid gd) i j) (N.mul (gridAt (s.grid gs) i j) (dwtStep N j i 8 8 3 s.basestep)))

/-- R214, R215: `QW.PLN` and `DQW.PLN` quantise and dequantise every sample of plane ds by its subband step into plane dd and
complete. -/
def Obligations.WaveletPlaneQuantisersFillPlane : Prop :=
  ∀ (dd ds : RegNum) (s : State),
    let Dd := s.desc dd
    let Ds := s.desc ds
    let w := Ds.w.toNat
    let h := Ds.h.toNat
    let N := Binary64.num
    decode (commandWord 0x54#8 dd ds 0 0) = .ok (.qwPln dd ds)
    ∧ decode (commandWord 0x55#8 dd ds 0 0) = .ok (.dqwPln dd ds)
    ∧ ∀ (cmd : Instr) (f : Sample → Sample → Sample),
      (cmd = .qwPln dd ds ∧ f = fun v q => N.rnd (N.div v q)) ∨ (cmd = .dqwPln dd ds ∧ f = fun v q => N.mul v q) →
      if s.descValid dd = false ∨ s.descValid ds = false then Raises cmd s .uninit
      else if s.status.cfgv = false then Raises cmd s .uninit
      else if Ds.c ≠ 1 ∨ Dd.c ≠ 1 ∨ Dd.w ≠ Ds.w ∨ Dd.h ≠ Ds.h then Raises cmd s .shape
      else if calcLevels w h < s.levels.toNat then Raises cmd s .badArg
      else if Dd.meets Ds = true then Raises cmd s .aliasing
      else Dd.legal s.memSamples = true → Ds.legal s.memSamples = true →
        ∃ t, exec cmd s = .next t ∧ OnlyMemory s t ∧ OutsideUnchanged Dd s t
          ∧ (s.finiteChannel Ds 0 → Binary64.isFinite s.basestep = true → ∀ row col, row < h → col < w →
              sameSample (t.memRead (Dd.idx row col 0))
                (f (s.memRead (Ds.idx row col 0)) (dwtStep N col row w h s.levels.toNat s.basestep)))

/-- R217, R218 with R216: `BITS.BLK` and `BITS.PLN` write to RES0 the sum of the bit costs of a grid in row-major order, and of
all samples of an image in address order, with `HDR_BITS` added last, and complete; RES1 is unchanged. -/
def Obligations.BitEstimatorsWriteRes0 : Prop :=
  ∀ (n : RegNum) (s : State),
    let N := Binary64.num
    let bits (v : Sample) : Sample :=
      if N.lt (N.abs v) (N.ofDec 5 1) = true then N.ofDec 5 1 else N.add (N.log2 (N.abs v)) (N.ofInt 3)
    let D := s.desc n
    decode (commandWord 0x58#8 n 0 0 0) = .ok (.bitsBlk n)
    ∧ decode (commandWord 0x59#8 n 0 0 0) = .ok (.bitsPln n)
    ∧ (if s.gridValid n = false then Raises (.bitsBlk n) s .uninit
      else ∃ t, exec (.bitsBlk n) s = .next t ∧ OnlyRes0 s t
        ∧ (FiniteGrid (s.grid n) → sameSample t.res0
            (N.add ((List.range 64).foldl (fun acc k => N.add acc (bits (gridAt (s.grid n) (k / 8) (k % 8)))) (N.ofInt 0))
              Config.hdrBits)))
    ∧ (if s.descValid n = false then Raises (.bitsPln n) s .uninit
      else D.legal s.memSamples = true →
        ∃ t, exec (.bitsPln n) s = .next t ∧ OnlyRes0 s t
          ∧ (s.finiteImage D → sameSample t.res0
              (N.add ((List.range (D.w.toNat * D.h.toNat * D.c.toNat)).foldl
                (fun acc k => N.add acc (bits (s.memRead (D.base.toNat + k)))) (N.ofInt 0)) Config.hdrBits)))

/-! ## Chroma -/

/-- R232 with R230 and R231: `CDOWN` writes to plane dd the average of the existing samples of each sx×sy neighbourhood of plane
ds and completes. -/
def Obligations.CdownAveragesNeighbourhoods : Prop :=
  ∀ (dd ds : RegNum) (m : BitVec 2) (s : State), m ≠ 3#2 →
    let Dd := s.desc dd
    let Ds := s.desc ds
    let N := Binary64.num
    let sx : Nat := if m = 0#2 then 1 else 2
    let sy : Nat := if m = 2#2 then 2 else 1
    decode (commandWord 0x60#8 dd ds 0 m) = .ok (.cdown dd ds m)
    ∧ if s.descValid dd = false ∨ s.descValid ds = false then Raises (.cdown dd ds m) s .uninit
      else if Ds.c ≠ 1 ∨ Dd.c ≠ 1 ∨ Dd.w.toNat ≠ (Ds.w.toNat + sx - 1) / sx ∨ Dd.h.toNat ≠ (Ds.h.toNat + sy - 1) / sy then
        Raises (.cdown dd ds m) s .shape
      else if Dd.meets Ds = true then Raises (.cdown dd ds m) s .aliasing
      else Dd.legal s.memSamples = true → Ds.legal s.memSamples = true →
        ∃ t, exec (.cdown dd ds m) s = .next t ∧ OnlyMemory s t ∧ OutsideUnchanged Dd s t
          ∧ (s.finiteChannel Ds 0 → ∀ y x, y < Dd.h.toNat → x < Dd.w.toNat →
              let p : Sample × Nat := (List.range sy).foldl (fun acc dy => (List.range sx).foldl (fun acc dx =>
                if y * sy + dy < Ds.h.toNat ∧ x * sx + dx < Ds.w.toNat then
                  (N.add acc.1 (s.memRead (Ds.idx (y * sy + dy) (x * sx + dx) 0)), acc.2 + 1)
                else acc) acc) (N.ofInt 0, 0)
              sameSample (t.memRead (Dd.idx y x 0)) (N.div p.1 (N.ofInt p.2)))

/-- R233 with R230 and R231: `CUP` writes plane ds, enlarged by nearest neighbour, to plane dd and completes; every output is
bit-identical to an input. -/
def Obligations.CupRepeatsSamples : Prop :=
  ∀ (dd ds : RegNum) (m : BitVec 2) (s : State), m ≠ 3#2 →
    let Dd := s.desc dd
    let Ds := s.desc ds
    let sx : Nat := if m = 0#2 then 1 else 2
    let sy : Nat := if m = 2#2 then 2 else 1
    decode (commandWord 0x61#8 dd ds 0 m) = .ok (.cup dd ds m)
    ∧ if s.descValid dd = false ∨ s.descValid ds = false then Raises (.cup dd ds m) s .uninit
      else if Ds.c ≠ 1 ∨ Dd.c ≠ 1 ∨ Ds.w.toNat ≠ (Dd.w.toNat + sx - 1) / sx ∨ Ds.h.toNat ≠ (Dd.h.toNat + sy - 1) / sy then
        Raises (.cup dd ds m) s .shape
      else if Dd.meets Ds = true then Raises (.cup dd ds m) s .aliasing
      else Dd.legal s.memSamples = true → Ds.legal s.memSamples = true →
        ∃ t, exec (.cup dd ds m) s = .next t ∧ OnlyMemory s t ∧ OutsideUnchanged Dd s t
          ∧ (s.finiteChannel Ds 0 → ∀ y x, y < Dd.h.toNat → x < Dd.w.toNat →
              y / sy < Ds.h.toNat ∧ x / sx < Ds.w.toNat
              ∧ t.memRead (Dd.idx y x 0) = s.memRead (Ds.idx (y / sy) (x / sx) 0))

/-! ## Pipeline -/

/-- R242 with R241: `PROC.PLN` completes with plane dd the reconstruction of plane ds: under block-DCT every full block
transformed, with QEN quantised and dequantised by table t, and inverse transformed, and the boundary samples copied;
under the wavelet the whole plane with `calcLevels` levels and its subband steps. A plane without a full block reads no
table entry and is copied whatever the table holds (R302); that what the loops read is what counts for R10 is the model's
choice (log 3). -/
def Obligations.ProcPlnReconstructsPlane : Prop :=
  ∀ (dd ds : RegNum) (sel : TableSel) (s : State),
    let Dd := s.desc dd
    let Ds := s.desc ds
    let w := Ds.w.toNat
    let h := Ds.h.toNat
    let N := Binary64.num
    let qen := s.cfg.getLsbD 0
    let W : Plane Sample := ⟨fun r c => s.memRead (Ds.idx r c 0)⟩
    let again (v q : Sample) : Sample := N.mul (N.rnd (N.div v q)) q
    decode (commandWord 0x70#8 dd ds 0 (selectorField sel)) = .ok (.procPln dd ds sel)
    ∧ if s.descValid dd = false ∨ s.descValid ds = false then Raises (.procPln dd ds sel) s .uninit
      else if s.status.cfgv = false then Raises (.procPln dd ds sel) s .uninit
      else if Ds.c ≠ 1 ∨ Dd.c ≠ 1 ∨ Dd.w ≠ Ds.w ∨ Dd.h ≠ Ds.h then Raises (.procPln dd ds sel) s .shape
      else if Dd.meets Ds = true then Raises (.procPln dd ds sel) s .aliasing
      else Dd.legal s.memSamples = true → Ds.legal s.memSamples = true →
        ∃ t, exec (.procPln dd ds sel) s = .next t ∧ OnlyMemory s t ∧ OutsideUnchanged Dd s t
          ∧ (s.finiteChannel Ds 0 →
              if s.cfg.getLsbD 3 = false then
                (qen = true → 8 ≤ w → 8 ≤ h → FiniteGrid (s.table sel)) → ∀ row col, row < h → col < w →
                  if row < 8 * (h / 8) ∧ col < 8 * (w / 8) then
                    let F := dctForward N (gridOf fun i j => W.get (8 * (row / 8) + i) (8 * (col / 8) + j))
                    let F' := if qen = true then gridOf fun i j => again (gridAt F i j) (gridAt (s.table sel) i j) else F
                    sameSample (t.memRead (Dd.idx row col 0)) (gridAt (dctInverse N F') (row % 8) (col % 8))
                  else t.memRead (Dd.idx row col 0) = s.memRead (Ds.idx row col 0)
              else
                let L := calcLevels w h
                let C := dwtForward N w h L W
                let C' : Plane Sample := if qen = true then
                  ⟨fun r c => again (C.get r c) (dwtStep N c r w h L s.basestep)⟩ else C
                (qen = true → Binary64.isFinite s.basestep = true) → ∀ row col, row < h → col < w →
                  sameSample (t.memRead (Dd.idx row col 0)) ((dwtInverse N w h L C').get row col))

/-- R245: `INSPECT` completes with the snapshot of a block in g0 to g4, all five valid, and nothing else written: five zero
grids under the wavelet configuration (no check of the arguments), else the padded block, its coefficients, the table,
the indices (the coefficients with QEN clear) and the reconstruction. -/
def Obligations.InspectFillsSnapshot : Prop :=
  ∀ (ds : RegNum) (sel : TableSel) (s : State),
    let D := s.desc ds
    let N := Binary64.num
    let row (i : Nat) : Nat := 8 * s.a1.toNat + i
    let col (j : Nat) : Nat := 8 * s.a0.toNat + j
    let qen := s.cfg.getLsbD 0
    decode (commandWord 0x71#8 ds 0 0 (selectorField sel)) = .ok (.inspect ds sel)
    ∧ if s.descValid ds = false then Raises (.inspect ds sel) s .uninit
      else if s.status.cfgv = false then Raises (.inspect ds sel) s .uninit
      else if s.cfg.getLsbD 3 = true then
        ∃ t, exec (.inspect ds sel) s = .next t ∧ OnlySnapshot s t
          ∧ ∀ n : RegNum, n.val < 5 → ∀ i j, i < 8 → j < 8 → gridAt (t.grid n) i j = 0#64
      else if D.c.toNat ≤ s.a2.toNat then Raises (.inspect ds sel) s .badArg
      else if D.w.toNat ≤ 8 * s.a0.toNat ∨ D.h.toNat ≤ 8 * s.a1.toNat then Raises (.inspect ds sel) s .badArg
      else D.legal s.memSamples = true →
        let O : Grid := gridOf fun i j =>
          if row i < D.h.toNat ∧ col j < D.w.toNat then s.memRead (D.idx (row i) (col j) s.a2.toNat) else 0#64
        let F := dctForward N O
        let T := s.table sel
        let K : Grid := if qen = true then gridOf fun i j => N.rnd (N.div (gridAt F i j) (gridAt T i j)) else F
        let R := dctInverse N (if qen = true then gridOf fun i j => N.mul (gridAt K i j) (gridAt T i j) else F)
        ∃ t, exec (.inspect ds sel) s = .next t ∧ OnlySnapshot s t
          ∧ ((∀ i j, i < 8 → j < 8 → row i < D.h.toNat → col j < D.w.toNat →
                Binary64.isFinite (s.memRead (D.idx (row i) (col j) s.a2.toNat)) = true) → FiniteGrid T →
              t.grid 0 = O ∧ sameGrid (t.grid 1) F ∧ t.grid 2 = T ∧ sameGrid (t.grid 3) K ∧ sameGrid (t.grid 4) R)

/-! ## Fidelity -/

/-- R262, R261: `PSNR` completes with the PSNR of two matching images in RES0, the mean squared error in RES1 and MISMATCH
clear; with images that do not match it completes with zeros and MISMATCH set. The sum in address order is the rule's
default, which the model takes (log 16). -/
def Obligations.PsnrWritesResults : Prop :=
  ∀ (da db : RegNum) (s : State),
    let A := s.desc da
    let B := s.desc db
    let N := Binary64.num
    let n := A.w.toNat * A.h.toNat * A.c.toNat
    let e (k : Nat) : Sample := N.sub (s.memRead (A.base.toNat + k)) (s.memRead (B.base.toNat + k))
    let mse := N.div ((List.range n).foldl (fun acc k => N.add acc (N.mul (e k) (e k))) (N.ofInt 0)) (N.ofInt n)
    decode (commandWord 0x80#8 da db 0 0) = .ok (.psnr da db)
    ∧ if s.descValid da = false ∨ s.descValid db = false then Raises (.psnr da db) s .uninit
      else if A.w ≠ B.w ∨ A.h ≠ B.h ∨ A.c ≠ B.c then
        ∃ t, exec (.psnr da db) s = .next t ∧ OnlyResults s t true ∧ t.res0 = 0#64 ∧ t.res1 = 0#64
      else A.legal s.memSamples = true → B.legal s.memSamples = true →
        ∃ t, exec (.psnr da db) s = .next t ∧ OnlyResults s t false
          ∧ (s.finiteImage A → s.finiteImage B →
              sameSample t.res1 mse
              ∧ sameSample t.res0 (if N.le mse (N.ofDec 1 10) = true then N.ofInt 100
                else N.mul (N.ofInt 10) (N.log10 (N.div (N.ofInt 65025) mse))))

/-- R262, R302: the PSNR of an image with itself is 100.0 and its mean squared error is 0, for every image of finite
samples. -/
def Obligations.PsnrOfSameImageIsCeiling : Prop :=
  ∀ (d : RegNum) (s : State), s.image d → s.finiteImage (s.desc d) →
    ∃ t, exec (.psnr d d) s = .next t ∧ t.res0 = Binary64.ofInt 100 ∧ Binary64.isZero t.res1 = true
      ∧ t.status.mismatch = false

/-- R266, R261 with R263 and R264: `SSIM` completes with the mean of the window indices of two matching planes in RES0, the number of
windows in RES1 and MISMATCH clear; with images that do not match it completes with zeros and MISMATCH set. The index of a
window is R264's, five sums, means, population moments and quotient, in the default order (log 15, log 16). -/
def Obligations.SsimAveragesWindows : Prop :=
  ∀ (da db : RegNum) (s : State),
    let A := s.desc da
    let B := s.desc db
    let N := Binary64.num
    let w := A.w.toNat
    let h := A.h.toNat
    let nwx := (w - 8) / 4 + 1
    let nwy := (h - 8) / 4 + 1
    let window (D : Desc) (y x : Nat) : List Sample :=
      (List.range 64).map fun k => s.memRead (D.idx (y + k / 8) (x + k % 8) 0)
    let sum (xs : List Sample) : Sample := xs.foldl N.add (N.ofInt 0)
    let index (as bs : List Sample) : Sample :=
      let sa := sum as
      let sb := sum bs
      let saa := sum (as.map fun a => N.mul a a)
      let sbb := sum (bs.map fun b => N.mul b b)
      let sab := sum (List.zipWith N.mul as bs)
      let ma := N.div sa (N.ofInt 64)
      let mb := N.div sb (N.ofInt 64)
      let va := N.sub (N.div saa (N.ofInt 64)) (N.mul ma ma)
      let vb := N.sub (N.div sbb (N.ofInt 64)) (N.mul mb mb)
      let cab := N.sub (N.div sab (N.ofInt 64)) (N.mul ma mb)
      let c1 := N.ofDec 65025 4
      let c2 := N.ofDec 585225 4
      N.div (N.mul (N.add (N.mul (N.mul (N.ofInt 2) ma) mb) c1) (N.add (N.mul (N.ofInt 2) cab) c2))
        (N.mul (N.add (N.add (N.mul ma ma) (N.mul mb mb)) c1) (N.add (N.add va vb) c2))
    decode (commandWord 0x81#8 da db 0 0) = .ok (.ssim da db)
    ∧ if s.descValid da = false ∨ s.descValid db = false then Raises (.ssim da db) s .uninit
      else if A.w ≠ B.w ∨ A.h ≠ B.h ∨ A.c ≠ B.c then
        ∃ t, exec (.ssim da db) s = .next t ∧ OnlyResults s t true ∧ t.res0 = 0#64 ∧ t.res1 = 0#64
      else if A.c ≠ 1 then Raises (.ssim da db) s .shape
      else if w < 8 ∨ h < 8 then Raises (.ssim da db) s .noWindow
      else A.legal s.memSamples = true → B.legal s.memSamples = true →
        ∃ t, exec (.ssim da db) s = .next t ∧ OnlyResults s t false
          ∧ (s.finiteImage A → s.finiteImage B →
              sameSample t.res1 (N.ofInt (nwy * nwx : Nat))
              ∧ sameSample t.res0 (N.div
                ((List.range nwy).foldl (fun acc i => (List.range nwx).foldl (fun acc j =>
                  N.add acc (index (window A (4 * i) (4 * j)) (window B (4 * i) (4 * j)))) acc) (N.ofInt 0))
                (N.ofInt (nwy * nwx : Nat))))

/-- R270, R261: `ARTMAP` completes with image dd the amplified absolute difference of two matching images and MISMATCH clear;
with sources that do not match it completes with nothing written but MISMATCH set. -/
def Obligations.ArtmapAmplifiesDifference : Prop :=
  ∀ (dd da db : RegNum) (s : State),
    let Dd := s.desc dd
    let A := s.desc da
    let B := s.desc db
    let N := Binary64.num
    decode (commandWord 0x82#8 dd da db 0) = .ok (.artmap dd da db)
    ∧ if s.descValid dd = false ∨ s.descValid da = false ∨ s.descValid db = false then Raises (.artmap dd da db) s .uninit
      else if Dd.w ≠ A.w ∨ Dd.h ≠ A.h ∨ Dd.c ≠ A.c then Raises (.artmap dd da db) s .shape
      else if Dd.meets A = true ∨ Dd.meets B = true then Raises (.artmap dd da db) s .aliasing
      else if A.w ≠ B.w ∨ A.h ≠ B.h ∨ A.c ≠ B.c then exec (.artmap dd da db) s = .next (s.complete.setMismatch true)
      else Dd.legal s.memSamples = true → A.legal s.memSamples = true → B.legal s.memSamples = true →
        ∃ t, exec (.artmap dd da db) s = .next t ∧ t = { s.complete.setMismatch false with mem := t.mem }
          ∧ OutsideUnchanged Dd s t
          ∧ (s.finiteImage A → s.finiteImage B → Binary64.isFinite s.gain = true →
              ∀ k, k < A.w.toNat * A.h.toNat * A.c.toNat →
                sameSample (t.memRead (Dd.base.toNat + k))
                  (N.min (N.ofInt 255) (N.mul
                    (N.abs (N.sub (s.memRead (A.base.toNat + k)) (s.memRead (B.base.toNat + k)))) s.gain)))

/-! ## The arithmetic over the reals (R6, R7 (a)), and the binary64 transforms beside it -/

/-- R161: the table of the cosine constants is `cos((2x+1)·u·π/16)`. -/
def Obligations.RealCosineTable : Prop :=
  ∀ x u : Nat, x < 8 → u < 8 → cosAt realNum x u = Real.cos ((2 * (x : ℝ) + 1) * (u : ℝ) * Real.pi / 16)

/-- R164 (a): over the reals the two transforms are inverse to each other and the forward one keeps the sum of squares. The
spec marks the exact form as derived from the orthonormality that the document asserts. Under binary64 the round trip is
within 1e-5, the tolerance of the document's test (R8), here for samples of magnitude at most 256, a bound of the model's
that holds the document's samples; the binary64 forms are those of log 1, log 16 and log 21. -/
def Obligations.RealDctRoundTrip : Prop :=
  (∀ g : GridOf ℝ,
    dctInverse realNum (dctForward realNum g) = g ∧ dctForward realNum (dctInverse realNum g) = g
    ∧ ((gridSamples (dctForward realNum g)).map fun v => v ^ 2).sum = ((gridSamples g).map fun v => v ^ 2).sum)
  ∧ ∀ g : Grid, FiniteGrid g → (∀ i j, i < 8 → j < 8 → |sampleReal (gridAt g i j)| ≤ 256) → ∀ i j, i < 8 → j < 8 →
    let x := gridAt (dctInverse Binary64.num (dctForward Binary64.num g)) i j
    Binary64.isFinite x = true ∧ |sampleReal x - sampleReal (gridAt g i j)| ≤ 1 / 10 ^ 5

/-- R164 (b) as conflict C3 settles it: over the reals a constant block of value A has DC coefficient 8·A and every other
coefficient 0; under binary64 both hold within 1e-5 (R8), here for a magnitude of at most 256, a bound of the model's that
holds the document's samples. The binary64 forms are those of log 1, log 16 and log 21. -/
def Obligations.RealDctOfConstantBlock : Prop :=
  (∀ (A : ℝ) (u v : Nat), u < 8 → v < 8 →
    gridAt (dctForward realNum (gridOf fun _ _ => A)) u v = if u = 0 ∧ v = 0 then 8 * A else 0)
  ∧ ∀ (A : Sample) (u v : Nat), Binary64.isFinite A = true → |sampleReal A| ≤ 256 → u < 8 → v < 8 →
    let x := gridAt (dctForward Binary64.num (gridOf fun _ _ => A)) u v
    Binary64.isFinite x = true ∧ |sampleReal x - if u = 0 ∧ v = 0 then 8 * sampleReal A else 0| ≤ 1 / 10 ^ 5

/-- R176: over the reals the block wavelet is perfectly reconstructed by its inverse and keeps the sum of squares. -/
def Obligations.RealHaar8RoundTripAndEnergy : Prop :=
  ∀ g : GridOf ℝ,
    haar8Inverse realNum (haar8Forward realNum g) = g
    ∧ ((gridSamples (haar8Forward realNum g)).map fun v => v ^ 2).sum = ((gridSamples g).map fun v => v ^ 2).sum

/-- R184: over the reals the full-image wavelet is perfectly reconstructed by its inverse, for every width, height and level
count, odd dimensions included. The spec marks the exact form as derived from R170, R171 and R176. -/
def Obligations.RealDwtRoundTrip : Prop :=
  ∀ (w h L : Nat) (W : Plane ℝ) (row col : Nat), row < h → col < w →
    (dwtInverse realNum w h L (dwtForward realNum w h L W)).get row col = W.get row col

/-- R185: on an 8×8 plane with three levels the full-image forms are the block forms, whatever the numbers are. The spec marks
this as derived from R174, R175, R182 and R183. -/
def Obligations.Haar8IsThreeLevelDwt : Prop :=
  ∀ (S : Type) (N : Num S) (g : GridOf S),
    calcLevels 8 8 = 3
    ∧ gridOfPlane (dwtForward N 8 8 3 (planeOfGrid g)) = haar8Forward N g
    ∧ gridOfPlane (dwtInverse N 8 8 3 (planeOfGrid g)) = haar8Inverse N g

/-- R204 with R9: over the reals quantising and dequantising by a step q ≥ 1 moves a value by at most q/2, and quantising a
dequantised integer gives the integer back. The spec marks the last two as derived from R9. -/
def Obligations.RealQuantisationError : Prop :=
  ∀ v q : ℝ, 1 ≤ q →
    quant realNum v q = SignType.sign (v / q) * ⌊|v / q| + 1 / 2⌋
    ∧ (∀ k : ℝ, dequant realNum k q = k * q)
    ∧ |dequant realNum (quant realNum v q) q - v| ≤ q / 2
    ∧ ∀ k : ℤ, quant realNum (dequant realNum (k : ℝ) q) q = k
end

