-- ==== Sys2Proof/Laws/Rounding.lean ====
section
/-! SUPPORT. What the binary64 operations do to the real values of finite samples: each result is finite and within half a unit
in the last place of the exact one, while that stays below 2^1000 (spec/00_scope.md R7 (b)). Statements about tolerances cite
these lemmas and never unfold an operation. -/

namespace Sys2Proof.Machine.Binary64

/-! ## Magnitude bits -/

/-- The units of 2^-1074 that magnitude bits stand for. -/
def magUnits (m : Nat) : Nat :=
  if m / 2 ^ 52 = 0 then m % 2 ^ 52 else (2 ^ 52 + m % 2 ^ 52) * 2 ^ (m / 2 ^ 52 - 1)

theorem units_eq (x : Sample) : units x = magUnits (magBits x) := rfl

/-- A significand m at place k, also when it has carried to 2^53. -/
theorem magUnits_place {k m : Nat} (h : k = 0 ∧ m ≤ 2 ^ 53 ∨ 2 ^ 52 ≤ m ∧ m ≤ 2 ^ 53) :
    magUnits (k * 2 ^ 52 + m) = m * 2 ^ k := by
  unfold magUnits
  by_cases h1 : m < 2 ^ 52
  · obtain ⟨rfl, -⟩ | ⟨h2, -⟩ := h
    · have e1 : (0 * 2 ^ 52 + m) / 2 ^ 52 = 0 := by omega
      have e2 : (0 * 2 ^ 52 + m) % 2 ^ 52 = m := by omega
      rw [e1, e2, if_pos rfl, pow_zero, Nat.mul_one]
    · omega
  · by_cases h2 : m < 2 ^ 53
    · have e1 : (k * 2 ^ 52 + m) / 2 ^ 52 = k + 1 := by omega
      have e2 : (k * 2 ^ 52 + m) % 2 ^ 52 = m - 2 ^ 52 := by omega
      have e3 : 2 ^ 52 + (m - 2 ^ 52) = m := by omega
      rw [e1, e2, if_neg (by omega), e3, Nat.add_sub_cancel]
    · have e0 : m = 2 ^ 53 := by omega
      have e1 : (k * 2 ^ 52 + m) / 2 ^ 52 = k + 2 := by omega
      have e2 : (k * 2 ^ 52 + m) % 2 ^ 52 = 0 := by omega
      rw [e1, e2, if_neg (by omega), e0, show k + 2 - 1 = k + 1 by omega, Nat.add_zero, pow_succ 2 k, pow_succ 2 52]
      ring

theorem magBits_pack (neg : Bool) {m : Nat} (h : m < infMag) : magBits (pack neg m) = m := by
  unfold infMag at h
  cases neg <;> simp only [magBits, pack, BitVec.toNat_ofNat, if_true, Bool.false_eq_true, if_false] <;> omega

theorem sign_pack (neg : Bool) {m : Nat} (h : m < infMag) : sign (pack neg m) = neg := by
  unfold infMag at h
  cases neg <;> simp only [sign, pack, BitVec.msb_eq_decide, BitVec.toNat_ofNat, if_true, Bool.false_eq_true, if_false,
    decide_eq_true_eq, decide_eq_false_iff_not] <;> omega

theorem isFinite_pack (neg : Bool) {m : Nat} (h : m < infMag) : isFinite (pack neg m) = true := by
  simp [isFinite, magBits_pack neg h, h]

/-- The real value of a packed sample. -/
theorem sampleReal_pack (neg : Bool) {m : Nat} (h : m < infMag) :
    sampleReal (pack neg m) = (if neg then -1 else 1) * ((magUnits m : ℝ) / 2 ^ 1074) := by
  unfold sampleReal value
  rw [sign_pack neg h, units_eq, magBits_pack neg h]
  cases neg
  · simp
  · push_cast
    simp [neg_div]

/-! ## Rounding -/

/-- `nearestEven n d` is within half of `n / d`. -/
theorem nearestEven_within (n : Nat) {d : Nat} (hd : 0 < d) :
    2 * (nearestEven n d * d) ≤ 2 * n + d ∧ 2 * n ≤ 2 * (nearestEven n d * d) + d := by
  have hm := Nat.mod_lt n hd
  have hn := Nat.div_add_mod n d
  unfold nearestEven
  split
  · rename_i h
    rw [Nat.add_mul, Nat.mul_comm (n / d) d]
    omega
  · rename_i h
    rw [Nat.mul_comm (n / d) d]
    omega

theorem nearestEven_ge {n d c : Nat} (hd : 0 < d) (h : c * d ≤ n) : c ≤ nearestEven n d := by
  have := (Nat.le_div_iff_mul_le hd).2 h
  unfold nearestEven
  split <;> omega

theorem nearestEven_le {n d c : Nat} (hd : 0 < d) (h : n < c * d) : nearestEven n d ≤ c := by
  have := (Nat.div_lt_iff_lt_mul hd).2 h
  unfold nearestEven
  split <;> omega

/-- Rounding u / d to 53 bits: a place k and a significand m that make finite magnitude bits, the value within half a unit of
the place, which is at most a 2^53rd of the value unless k is 0. -/
theorem round_place {u d B : Nat} (hd : 0 < d) (hB : B ≤ 2090) (hu : u ≤ d * 2 ^ B) :
    let k := (u / d).log2 - 52
    let m := nearestEven u (d * 2 ^ k)
    (k = 0 ∧ m ≤ 2 ^ 53 ∨ 2 ^ 52 ≤ m ∧ m ≤ 2 ^ 53) ∧ k * 2 ^ 52 + m < infMag
      ∧ |((m * 2 ^ k : Nat) : ℝ) - (u : ℝ) / d| ≤ (u : ℝ) / d / 2 ^ 53 + 1 / 2 := by
  intro k m
  have hq : u / d ≤ 2 ^ B := Nat.div_le_of_le_mul hu
  have hD : 0 < d * 2 ^ k := Nat.mul_pos hd (Nat.two_pow_pos k)
  have hdr : (0 : ℝ) < d := by exact_mod_cast hd
  have hkr : (0 : ℝ) < 2 ^ k := by positivity
  have hlt : u < 2 ^ 53 * (d * 2 ^ k) := by
    have h1 : u / d < 2 ^ ((u / d).log2 + 1) := Nat.lt_log2_self
    have h2 : 2 ^ ((u / d).log2 + 1) ≤ 2 ^ (53 + k) := Nat.pow_le_pow_right (by omega) (by omega)
    have h3 := (Nat.div_lt_iff_lt_mul hd).1 (h1.trans_le h2)
    calc u < 2 ^ (53 + k) * d := h3
      _ = _ := by rw [pow_add]; ring
  have hm : m ≤ 2 ^ 53 := nearestEven_le hD hlt
  have hk : k ≤ 2038 := by
    by_cases h0 : u / d = 0
    · simp [k, h0]
    · have := (Nat.log2_lt (k := B + 1) h0).2 (by rw [pow_succ]; have := Nat.two_pow_pos B; omega)
      omega
  have hge : k = 0 ∨ 2 ^ 52 * (d * 2 ^ k) ≤ u := by
    by_cases h0 : k = 0
    · exact .inl h0
    · refine .inr ?_
      have hq0 : u / d ≠ 0 := by
        intro h
        simp [k, h] at h0
      have h1 : 2 ^ (u / d).log2 ≤ u / d := Nat.log2_self_le hq0
      have h2 : (u / d).log2 = 52 + k := by omega
      rw [h2] at h1
      have h3 := (Nat.le_div_iff_mul_le hd).1 h1
      calc 2 ^ 52 * (d * 2 ^ k) = 2 ^ (52 + k) * d := by rw [pow_add]; ring
        _ ≤ u := h3
  refine ⟨hge.imp (fun h => ⟨h, hm⟩) (fun h => ⟨nearestEven_ge hD h, hm⟩), ?_, ?_⟩
  · unfold infMag
    omega
  · obtain ⟨w1, w2⟩ := nearestEven_within u hD
    change 2 * (m * (d * 2 ^ k)) ≤ _ at w1
    change _ ≤ 2 * (m * (d * 2 ^ k)) + _ at w2
    have r1 : 2 * ((m : ℝ) * (d * 2 ^ k)) ≤ 2 * u + d * 2 ^ k := by exact_mod_cast w1
    have r2 : 2 * (u : ℝ) ≤ 2 * (m * (d * 2 ^ k)) + d * 2 ^ k := by exact_mod_cast w2
    have half : |((m * 2 ^ k : Nat) : ℝ) - u / d| ≤ 2 ^ k / 2 := by
      push_cast
      rw [abs_le]
      constructor
      · rw [neg_le_sub_iff_le_add, div_le_iff₀ hdr]
        linarith
      · rw [sub_le_iff_le_add, ← sub_le_iff_le_add', le_div_iff₀ hdr]
        linarith
    refine half.trans ?_
    obtain h | h := hge
    · rw [h]
      have : (0 : ℝ) ≤ u / d / 2 ^ 53 := by positivity
      linarith
    · have h' : (2 : ℝ) ^ 52 * (d * 2 ^ k) ≤ u := by exact_mod_cast h
      have : (2 : ℝ) ^ k / 2 ≤ u / d / 2 ^ 53 := by
        rw [le_div_iff₀ (by positivity), le_div_iff₀ hdr]
        linarith
      linarith

/-- `roundMag n d`, while n / d is at most 2^1000: finite magnitude bits within half a unit in the last place. -/
theorem roundMag_within {n d : Nat} (hd : 0 < d) (h : n ≤ d * 2 ^ 1000) :
    roundMag n d < infMag
      ∧ |(magUnits (roundMag n d) : ℝ) / 2 ^ 1074 - (n : ℝ) / d| ≤ (n : ℝ) / d / 2 ^ 53 + 1 / 2 ^ 1075 := by
  unfold roundMag
  rw [show (1 : ℝ) / 2 ^ 1075 = 1 / 2 / 2 ^ 1074 by rw [div_div, ← pow_succ']]
  have hu : n * 2 ^ 1074 ≤ d * 2 ^ (1000 + 1074) := by
    rw [pow_add, ← Nat.mul_assoc]
    exact Nat.mul_le_mul_right _ h
  obtain ⟨hp, hi, hw⟩ := round_place hd (by omega) hu
  have hU : (0 : ℝ) < 2 ^ 1074 := by positivity
  have eU : ((n * 2 ^ 1074 : Nat) : ℝ) = n * 2 ^ 1074 := by rw [Nat.cast_mul, Nat.cast_pow, Nat.cast_ofNat]
  rw [eU] at hw
  simp only [Nat.min_def, if_neg (Nat.not_le.2 hi)]
  refine ⟨hi, ?_⟩
  rw [magUnits_place hp]
  generalize (2 : ℝ) ^ 1074 = U at *
  have e1 : (n : ℝ) * U / d = n / d * U := by ring
  rw [e1] at hw
  rw [← mul_le_mul_iff_left₀ hU, ← abs_of_pos hU, ← abs_mul, abs_of_pos hU, sub_mul, div_mul_cancel₀ _ hU.ne', add_mul,
    div_mul_cancel₀ _ hU.ne']
  exact hw.trans (le_of_eq (by ring))

/-! ## The operations on finite samples -/

theorem not_isNaN {x : Sample} (h : isFinite x = true) : isNaN x = false := by
  simp only [isFinite, isNaN, decide_eq_true_eq, decide_eq_false_iff_not] at *
  omega

theorem not_isInf {x : Sample} (h : isFinite x = true) : isInf x = false := by
  simp only [isFinite, isInf, decide_eq_true_eq, beq_eq_false_iff_ne] at *
  omega

/-- `-1` or `1`, the factor of a sign bit. -/
def signReal (neg : Bool) : ℝ := if neg then -1 else 1

theorem signReal_xor (a b : Bool) : signReal (a != b) = signReal a * signReal b := by
  cases a <;> cases b <;> simp [signReal]

theorem abs_signReal (a : Bool) : |signReal a| = 1 := by
  cases a <;> simp [signReal]

theorem sampleReal_eq (x : Sample) : sampleReal x = signReal (sign x) * (units x / 2 ^ 1074) := by
  unfold sampleReal value signReal
  split
  · rw [Int.cast_neg, Int.cast_natCast]
    ring
  · simp

theorem abs_sampleReal (x : Sample) : |sampleReal x| = units x / 2 ^ 1074 := by
  rw [sampleReal_eq, abs_mul, abs_signReal, one_mul, abs_of_nonneg (by positivity)]

/-- A rounded quotient of numbers with a sign: finite, and within half a unit in the last place. -/
theorem pack_roundMag_within (neg : Bool) {n d : Nat} {r : ℝ} (hd : 0 < d) (hr : (n : ℝ) / d = |r|)
    (hs : r = signReal neg * |r|) (hb : |r| ≤ 2 ^ 1000) :
    isFinite (pack neg (roundMag n d)) = true
      ∧ |sampleReal (pack neg (roundMag n d)) - r| ≤ |r| / 2 ^ 53 + 1 / 2 ^ 1075 := by
  have hd' : (0 : ℝ) < d := by exact_mod_cast hd
  have hn : n ≤ d * 2 ^ 1000 := by
    have : (n : ℝ) ≤ 2 ^ 1000 * d := by rwa [← div_le_iff₀ hd', hr]
    rw [Nat.mul_comm]
    exact_mod_cast this
  obtain ⟨hi, hw⟩ := roundMag_within hd hn
  refine ⟨isFinite_pack neg hi, ?_⟩
  rw [hr] at hw
  rw [sampleReal_pack neg hi]
  change |signReal neg * _ - r| ≤ _
  rw [hs, ← mul_sub, abs_mul, abs_signReal, one_mul, ← hs]
  exact hw

/-- A product of finite samples. -/
theorem mul_within {a b : Sample} (ha : isFinite a = true) (hb : isFinite b = true)
    (h : |sampleReal a * sampleReal b| ≤ 2 ^ 1000) :
    isFinite (mul a b) = true
      ∧ |sampleReal (mul a b) - sampleReal a * sampleReal b|
        ≤ |sampleReal a * sampleReal b| / 2 ^ 53 + 1 / 2 ^ 1075 := by
  unfold mul
  simp only [not_isNaN ha, not_isNaN hb, not_isInf ha, not_isInf hb, Bool.or_self, Bool.false_eq_true, if_false]
  refine pack_roundMag_within _ (Nat.two_pow_pos _) ?_ ?_ h
  · rw [abs_mul, abs_sampleReal, abs_sampleReal, div_mul_div_comm, ← pow_add, Nat.cast_mul, Nat.cast_pow, Nat.cast_ofNat]
  · rw [abs_mul, signReal_xor, abs_sampleReal, abs_sampleReal]
    rw [sampleReal_eq a, sampleReal_eq b]
    ring

/-- A sum of finite samples. -/
theorem add_within {a b : Sample} (ha : isFinite a = true) (hb : isFinite b = true)
    (h : |sampleReal a + sampleReal b| ≤ 2 ^ 1000) :
    isFinite (add a b) = true
      ∧ |sampleReal (add a b) - (sampleReal a + sampleReal b)|
        ≤ |sampleReal a + sampleReal b| / 2 ^ 53 + 1 / 2 ^ 1075 := by
  have e : sampleReal a + sampleReal b = ((value a + value b : Int) : ℝ) / 2 ^ 1074 := by
    rw [sampleReal, sampleReal, Int.cast_add, add_div]
  rw [e] at h ⊢
  clear e
  unfold add
  simp only [not_isNaN ha, not_isNaN hb, not_isInf ha, not_isInf hb, Bool.or_self, Bool.false_eq_true, if_false]
  generalize value a + value b = v at *
  split
  · rename_i hv
    have h0 : (0 : Nat) < infMag := by decide
    refine ⟨isFinite_pack _ h0, ?_⟩
    rw [sampleReal_pack _ h0, hv, show magUnits 0 = 0 from rfl]
    simp
  · refine pack_roundMag_within _ (Nat.two_pow_pos _) ?_ ?_ h
    · rw [abs_div, abs_of_pos (show (0 : ℝ) < 2 ^ 1074 by positivity), Nat.cast_natAbs, Nat.cast_pow, Nat.cast_ofNat,
        Int.cast_abs]
    · rw [abs_div, abs_of_pos (show (0 : ℝ) < 2 ^ 1074 by positivity)]
      by_cases hv : v < 0
      · have : (v : ℝ) < 0 := by exact_mod_cast hv
        simp [signReal, hv, abs_of_neg this, neg_div]
      · have : (0 : ℝ) ≤ v := by exact_mod_cast not_lt.1 hv
        simp [signReal, hv, abs_of_nonneg this]

/-- Negation is exact. -/
theorem neg_exact (a : Sample) : isFinite (neg a) = isFinite a ∧ sampleReal (neg a) = -sampleReal a := by
  have hm : magBits (neg a) = magBits a := by
    unfold magBits neg
    have h : (a ^^^ 0x8000000000000000#64).setWidth 63 = a.setWidth 63 := by
      rw [BitVec.setWidth_xor, show (0x8000000000000000#64).setWidth 63 = 0#63 by decide, BitVec.xor_zero]
    have := congrArg BitVec.toNat h
    rwa [BitVec.toNat_setWidth, BitVec.toNat_setWidth] at this
  have hs : sign (neg a) = !sign a := by
    rw [sign, neg, BitVec.msb_xor, show (0x8000000000000000#64).msb = true by decide, Bool.xor_true, sign]
  refine ⟨by simp [isFinite, hm], ?_⟩
  rw [sampleReal_eq, sampleReal_eq, hs, units_eq, units_eq, hm]
  cases sign a <;> simp [signReal]

/-- A difference of finite samples. -/
theorem sub_within {a b : Sample} (ha : isFinite a = true) (hb : isFinite b = true)
    (h : |sampleReal a - sampleReal b| ≤ 2 ^ 1000) :
    isFinite (sub a b) = true
      ∧ |sampleReal (sub a b) - (sampleReal a - sampleReal b)|
        ≤ |sampleReal a - sampleReal b| / 2 ^ 53 + 1 / 2 ^ 1075 := by
  unfold sub
  rw [not_isNaN ha, not_isNaN hb, if_neg (by simp)]
  rw [show sampleReal a - sampleReal b = sampleReal a + sampleReal (neg b) by rw [(neg_exact b).2, sub_eq_add_neg]] at h ⊢
  exact add_within ha ((neg_exact b).1.trans hb) h

/-- A quotient of finite samples, the divisor not a zero. -/
theorem div_within {a b : Sample} (ha : isFinite a = true) (hb : isFinite b = true) (h0 : sampleReal b ≠ 0)
    (h : |sampleReal a / sampleReal b| ≤ 2 ^ 1000) :
    isFinite (div a b) = true
      ∧ |sampleReal (div a b) - sampleReal a / sampleReal b|
        ≤ |sampleReal a / sampleReal b| / 2 ^ 53 + 1 / 2 ^ 1075 := by
  have hu : units b ≠ 0 := by
    intro hu
    rw [sampleReal_eq, hu] at h0
    simp at h0
  have hz : isZero b = false := by
    simp only [isZero, beq_eq_false_iff_ne]
    intro hm
    rw [units_eq, hm] at hu
    exact hu rfl
  have hU : (2 : ℝ) ^ 1074 ≠ 0 := by positivity
  unfold div
  simp only [not_isNaN ha, not_isNaN hb, not_isInf ha, not_isInf hb, hz, Bool.or_self, Bool.false_eq_true, if_false]
  refine pack_roundMag_within _ (Nat.pos_of_ne_zero hu) ?_ ?_ h
  · rw [abs_div, abs_sampleReal, abs_sampleReal, div_div_div_cancel_right₀ hU]
  · rw [abs_div, abs_sampleReal, abs_sampleReal, signReal_xor, sampleReal_eq a, sampleReal_eq b]
    cases sign a <;> cases sign b <;> simp [signReal, neg_div, div_neg]

/-- The sample of a decimal literal. -/
theorem ofDec_within (m k : Nat) (h : (m : ℝ) / 10 ^ k ≤ 2 ^ 1000) :
    isFinite (ofDec m k) = true
      ∧ |sampleReal (ofDec m k) - (m : ℝ) / 10 ^ k| ≤ (m : ℝ) / 10 ^ k / 2 ^ 53 + 1 / 2 ^ 1075 := by
  have e : |(m : ℝ) / 10 ^ k| = (m : ℝ) / 10 ^ k := abs_of_nonneg (by positivity)
  have := pack_roundMag_within (r := (m : ℝ) / 10 ^ k) false (n := m) (d := 10 ^ k) (by positivity)
    (by rw [e]; push_cast; rfl) (by rw [e]; simp [signReal]) (by rwa [e])
  rwa [e] at this

/-- The sample of an integer. -/
theorem ofInt_within (i : Int) (h : |(i : ℝ)| ≤ 2 ^ 1000) :
    isFinite (ofInt i) = true ∧ |sampleReal (ofInt i) - (i : ℝ)| ≤ |(i : ℝ)| / 2 ^ 53 + 1 / 2 ^ 1075 := by
  refine pack_roundMag_within _ Nat.one_pos ?_ ?_ h
  · rw [Nat.cast_natAbs]
    push_cast
    simp
  · by_cases hi : i < 0
    · have : (i : ℝ) < 0 := by exact_mod_cast hi
      simp [signReal, hi, abs_of_neg this]
    · have : (0 : ℝ) ≤ i := by exact_mod_cast not_lt.1 hi
      simp [signReal, hi, abs_of_nonneg this]

end Sys2Proof.Machine.Binary64
end

