-- ==== Sys2Proof/Laws/Cosine.lean ====
section
/-! SUPPORT. The cosine constants of spec/42_dct.md R161: the binary64 constant from the 20 decimals is within 1e-15 of the
exact cosine. -/
namespace Sys2Proof.Machine.Binary64

theorem sqrt_between {x lo hi : ℝ} (hl : lo ^ 2 ≤ x) (hh : x ≤ hi ^ 2) (h1 : 0 ≤ hi) :
    lo ≤ √x ∧ √x ≤ hi := ⟨Real.le_sqrt_of_sq_le hl, (Real.sqrt_le_left h1).2 hh⟩

theorem sqrt_two_between : (1.414213562373095048 : ℝ) ≤ √2 ∧ √2 ≤ 1.414213562373095049 :=
  sqrt_between (by norm_num) (by norm_num) (by norm_num)

theorem cos_eighth : |Real.cos (Real.pi / 8) - 92387953251128675613 / 10 ^ 20| ≤ 1 / 10 ^ 17 := by
  obtain ⟨a, b⟩ := sqrt_two_between
  obtain ⟨c, d⟩ := sqrt_between (x := 2 + √2) (lo := 1.847759065022573512) (hi := 1.847759065022573513)
    (by norm_num; linarith) (by norm_num; linarith) (by norm_num)
  rw [Real.cos_pi_div_eight, abs_le]
  constructor <;> linarith

theorem sin_eighth : |Real.sin (Real.pi / 8) - 38268343236508977173 / 10 ^ 20| ≤ 1 / 10 ^ 17 := by
  obtain ⟨a, b⟩ := sqrt_two_between
  obtain ⟨c, d⟩ := sqrt_between (x := 2 - √2) (lo := 0.765366864730179543) (hi := 0.765366864730179544)
    (by norm_num; linarith) (by norm_num; linarith) (by norm_num)
  rw [Real.sin_pi_div_eight, abs_le]
  constructor <;> linarith

theorem cos_sixteenth :
    (0.980785280403230448 : ℝ) ≤ Real.cos (Real.pi / 16) ∧ Real.cos (Real.pi / 16) ≤ 0.98078528040323045 := by
  obtain ⟨a, b⟩ := sqrt_two_between
  obtain ⟨c, d⟩ := sqrt_between (x := 2 + √2) (lo := 1.847759065022573512) (hi := 1.847759065022573513)
    (by norm_num; linarith) (by norm_num; linarith) (by norm_num)
  obtain ⟨e, f⟩ := sqrt_between (x := 2 + √(2 + √2)) (lo := 1.961570560806460897) (hi := 1.961570560806460900)
    (by norm_num; linarith) (by norm_num; linarith) (by norm_num)
  rw [Real.cos_pi_div_sixteen]
  constructor <;> linarith

theorem sin_sixteenth :
    (0.195090322016128267 : ℝ) ≤ Real.sin (Real.pi / 16) ∧ Real.sin (Real.pi / 16) ≤ 0.195090322016128269 := by
  obtain ⟨a, b⟩ := sqrt_two_between
  obtain ⟨c, d⟩ := sqrt_between (x := 2 + √2) (lo := 1.847759065022573512) (hi := 1.847759065022573513)
    (by norm_num; linarith) (by norm_num; linarith) (by norm_num)
  obtain ⟨e, f⟩ := sqrt_between (x := 2 - √(2 + √2)) (lo := 0.390180644032256534) (hi := 0.390180644032256538)
    (by norm_num; linarith) (by norm_num; linarith) (by norm_num)
  rw [Real.sin_pi_div_sixteen]
  constructor <;> linarith
/-- `cos(kπ/16)` is within 1e-16 of the decimals of R161. -/
theorem cos_decimals :
    |Real.cos ((1 : ℕ) * Real.pi / 16) - (98078528040323044913 : ℕ) / 10 ^ 20| ≤ 1 / 10 ^ 16
    ∧ |Real.cos ((2 : ℕ) * Real.pi / 16) - (92387953251128675613 : ℕ) / 10 ^ 20| ≤ 1 / 10 ^ 16
    ∧ |Real.cos ((3 : ℕ) * Real.pi / 16) - (83146961230254523708 : ℕ) / 10 ^ 20| ≤ 1 / 10 ^ 16
    ∧ |Real.cos ((4 : ℕ) * Real.pi / 16) - (70710678118654752440 : ℕ) / 10 ^ 20| ≤ 1 / 10 ^ 16
    ∧ |Real.cos ((5 : ℕ) * Real.pi / 16) - (55557023301960222474 : ℕ) / 10 ^ 20| ≤ 1 / 10 ^ 16
    ∧ |Real.cos ((6 : ℕ) * Real.pi / 16) - (38268343236508977173 : ℕ) / 10 ^ 20| ≤ 1 / 10 ^ 16
    ∧ |Real.cos ((7 : ℕ) * Real.pi / 16) - (19509032201612826785 : ℕ) / 10 ^ 20| ≤ 1 / 10 ^ 16 := by
  obtain ⟨a, b⟩ := sqrt_two_between
  obtain ⟨c, d⟩ := cos_sixteenth
  obtain ⟨e, f⟩ := sin_sixteenth
  obtain ⟨g, h⟩ := abs_le.1 cos_eighth
  obtain ⟨p, q⟩ := abs_le.1 sin_eighth
  have e3 : Real.cos (3 * Real.pi / 16) = 4 * Real.cos (Real.pi / 16) ^ 3 - 3 * Real.cos (Real.pi / 16) := by
    rw [← Real.cos_three_mul]
    ring_nf
  have e5 : Real.cos (5 * Real.pi / 16) = 3 * Real.sin (Real.pi / 16) - 4 * Real.sin (Real.pi / 16) ^ 3 := by
    rw [← Real.sin_three_mul, ← Real.cos_pi_div_two_sub]
    ring_nf
  have e6 : Real.cos (6 * Real.pi / 16) = Real.sin (Real.pi / 8) := by
    rw [← Real.cos_pi_div_two_sub]
    ring_nf
  have e7 : Real.cos (7 * Real.pi / 16) = Real.sin (Real.pi / 16) := by
    rw [← Real.cos_pi_div_two_sub]
    ring_nf
  have c3 := pow_le_pow_left₀ (by norm_num) c 3
  have d3 := pow_le_pow_left₀ (by linarith) d 3
  have s3 := pow_le_pow_left₀ (by norm_num) e 3
  have t3 := pow_le_pow_left₀ (by linarith) f 3
  push_cast
  rw [e3, e5, e6, e7, show 2 * Real.pi / 16 = Real.pi / 8 by ring, show 4 * Real.pi / 16 = Real.pi / 4 by ring,
    one_mul, Real.cos_pi_div_four]
  clear e3 e5 e6 e7
  generalize Real.cos (Real.pi / 16) = c1, Real.sin (Real.pi / 16) = s1, Real.cos (Real.pi / 8) = c2,
    Real.sin (Real.pi / 8) = s2 at *
  simp only [abs_le]
  norm_num at c3 d3 s3 t3 ⊢
  refine ⟨⟨?_, ?_⟩, ⟨?_, ?_⟩, ⟨?_, ?_⟩, ⟨?_, ?_⟩, ⟨?_, ?_⟩, ⟨?_, ?_⟩, ⟨?_, ?_⟩⟩ <;> linarith

/-- A constant from its decimals is within 1e-15 of any real within 1e-16 of them. -/
theorem ofDec_near {m : Nat} {r : ℝ} (hm : m ≤ 10 ^ 20) (h : |r - (m : ℝ) / 10 ^ 20| ≤ 1 / 10 ^ 16) :
    isFinite (ofDec m 20) = true ∧ |sampleReal (ofDec m 20) - r| ≤ 1 / 10 ^ 15 := by
  have h1 : (m : ℝ) / 10 ^ 20 ≤ 1 := by
    rw [div_le_one (by positivity)]
    exact_mod_cast hm
  obtain ⟨hf, hw⟩ := ofDec_within m 20 (h1.trans (one_le_pow₀ (by norm_num)))
  refine ⟨hf, ?_⟩
  have h2 : (1 : ℝ) / 2 ^ 1075 ≤ 1 / 2 ^ 53 :=
    one_div_le_one_div_of_le (by positivity) (pow_le_pow_right₀ (by norm_num) (by norm_num))
  have h3 : (m : ℝ) / 10 ^ 20 / 2 ^ 53 ≤ 1 / 2 ^ 53 := div_le_div_of_nonneg_right h1 (by positivity)
  have h4 : (1 : ℝ) / 2 ^ 53 ≤ 2 / 10 ^ 16 := by norm_num
  have := abs_sub_le (sampleReal (ofDec m 20)) ((m : ℝ) / 10 ^ 20) r
  rw [abs_sub_comm] at h
  have h5 : (1 : ℝ) / 10 ^ 16 + 4 / 10 ^ 16 ≤ 1 / 10 ^ 15 := by norm_num
  linarith

/-- `ck` is within 1e-15 of `cos(kπ/16)`. -/
theorem ck_within {k : Nat} (hk : k < 8) :
    isFinite (ck k) = true ∧ |sampleReal (ck k) - Real.cos (k * Real.pi / 16)| ≤ 1 / 10 ^ 15 := by
  obtain ⟨h1, h2, h3, h4, h5, h6, h7⟩ := cos_decimals
  match k, hk with
  | 0, _ =>
    refine ⟨by decide +kernel, ?_⟩
    have e : value (ck 0) = 2 ^ 1074 := by decide +kernel
    rw [sampleReal, e, Int.cast_pow, Int.cast_ofNat, div_self (by positivity)]
    norm_num
  | 1, _ => exact ofDec_near (by norm_num) h1
  | 2, _ => exact ofDec_near (by norm_num) h2
  | 3, _ => exact ofDec_near (by norm_num) h3
  | 4, _ => exact ofDec_near (by norm_num) h4
  | 5, _ => exact ofDec_near (by norm_num) h5
  | 6, _ => exact ofDec_near (by norm_num) h6
  | 7, _ => exact ofDec_near (by norm_num) h7

end Sys2Proof.Machine.Binary64
end

