-- ==== Sys2Proof/Laws/Frame.lean ====
section
/-! SUPPORT. The command frame: what `run`, `reaching` and the free values of outputs can do, said once. -/

namespace Sys2Proof.Machine

@[simp] theorem firstFault_nil : firstFault [] = none := rfl

@[simp] theorem firstFault_cons (b : Bool) (f : FaultCode) (rest : Checks) :
    firstFault ((b, f) :: rest) = if b then some f else firstFault rest := rfl

/-- A command whose first failing check has fault f raises f with its own word (R121, R305). -/
theorem run_of_fault {cmd : Instr} {s : State} {checks : Checks} {f : FaultCode} (effects : Result)
    (h : firstFault checks = some f) : run cmd s checks effects = .next (s.raise (encode cmd) f) := by
  simp [run, h]

/-- A command whose checks all pass has its effects (R121). -/
theorem run_of_pass {cmd : Instr} {s : State} {checks : Checks} (effects : Result) (h : firstFault checks = none) :
    run cmd s checks effects = effects := by
  simp [run, h]

/-- Everything a run command can do when it answers a next state. -/
theorem run_cases {cmd : Instr} {s t : State} {checks : Checks} {effects : Result}
    (h : run cmd s checks effects = .next t) :
    (∃ f, firstFault checks = some f ∧ t = s.raise (encode cmd) f) ∨ (firstFault checks = none ∧ effects = .next t) := by
  unfold run at h
  split at h
  · rename_i f hf
    exact .inl ⟨f, hf, by simpa using h.symm⟩
  · rename_i hf
    exact .inr ⟨hf, h⟩

/-- Effects that reach memory through descriptors complete only when every descriptor is legal. -/
theorem reaching_cases {s t : State} {images : List Desc} {effects : Result} (h : reaching s images effects = .next t) :
    images.all (Desc.legal s.memSamples) = true ∧ effects = .next t := by
  unfold reaching at h
  split at h
  · exact ⟨‹_›, h⟩
  · cases h

@[simp] theorem reaching_of_legal {s : State} {images : List Desc} (effects : Result)
    (h : images.all (Desc.legal s.memSamples) = true) : reaching s images effects = effects := by
  simp [reaching, h]

theorem completes_cases {s t : State} (h : completes s = .next t) : t = s.complete := by
  simpa [completes] using h.symm

@[simp] theorem State.moved_finite (s : State) (place : Nat) (v : Sample) : s.moved true place v = v := rfl

@[simp] theorem State.moved_open (s : State) (place : Nat) (v : Sample) :
    s.moved false place v = Config.anySample s.freeCount place := rfl

end Sys2Proof.Machine
end

