-- ==== Sys2Proof/Laws/Grid.lean ====
section
/-! SUPPORT. Grids and working planes: reading what a formula built, and that tabulating a plane changes none of it. -/

namespace Sys2Proof.Machine

@[simp] theorem gridAt_gridOf {S : Type} (f : Nat → Nat → S) {i j : Nat} (hi : i < 8) (hj : j < 8) :
    gridAt (gridOf f) i j = f i j := by
  have h1 : (8 * (i % 8) + j % 8) / 8 = i := by omega
  have h2 : (8 * (i % 8) + j % 8) % 8 = j := by omega
  simp [gridAt, gridOf, h1, h2]

/-- Two grids with the same 64 elements are the same grid. -/
theorem grid_ext {S : Type} {a b : GridOf S} (h : ∀ i j, i < 8 → j < 8 → gridAt a i j = gridAt b i j) : a = b := by
  apply Vector.ext
  intro k hk
  have := h (k / 8) (k % 8) (by omega) (by omega)
  simp only [gridAt] at this
  have hk' : 8 * (k / 8 % 8) + k % 8 % 8 = k := by omega
  simpa only [hk'] using this

/-- Two formulas that agree on 0..7 build the same grid. -/
theorem gridOf_congr {S : Type} {f g : Nat → Nat → S} (h : ∀ i j, i < 8 → j < 8 → f i j = g i j) :
    gridOf f = gridOf g :=
  grid_ext fun i j hi hj => by rw [gridAt_gridOf f hi hj, gridAt_gridOf g hi hj, h i j hi hj]

/-- A grid is the grid of its elements. -/
@[simp] theorem gridOf_gridAt {S : Type} (g : GridOf S) : gridOf (gridAt g) = g :=
  grid_ext fun _ _ hi hj => gridAt_gridOf _ hi hj

/-- Two planes with the same samples are the same plane. -/
theorem plane_ext {S : Type} {A B : Plane S} (h : ∀ r c, A.get r c = B.get r c) : A = B := by
  cases A
  cases B
  congr
  exact funext fun r => funext fun c => h r c

/-- Tabulating a plane changes no sample. -/
@[simp] theorem tabulate_eq {S : Type} (h w : Nat) (W : Plane S) : W.tabulate h w = W := by
  apply plane_ext
  intro r c
  simp only [Plane.tabulate]
  split
  · rename_i hb
    have hw : 0 < w := by omega
    simp only [Vector.getElem_ofFn]
    rw [Nat.add_comm, Nat.add_mul_div_right _ _ hw, Nat.div_eq_of_lt hb.2, Nat.zero_add, Nat.add_mul_mod_self_right,
      Nat.mod_eq_of_lt hb.2]
  · rfl

end Sys2Proof.Machine
end

