-- ==== Sys2Proof/Laws/Memory.lean ====
section
/-! SUPPORT. Plane memory: what a read gives after a write, and that every memory operation keeps the canonical form. -/

namespace Sys2Proof.Machine

@[simp] theorem Memory.find?_nil (a : Nat) : Memory.find? [] a = none := rfl

theorem Memory.find?_insert_same (m : Memory) (a : Nat) (v : Sample) : (m.insert a v).find? a = some v := by
  induction m with
  | nil => simp [Memory.insert, Memory.find?]
  | cons cell rest ih =>
    obtain ⟨b, u⟩ := cell
    unfold Memory.insert
    split
    · simp [Memory.find?]
    · split
      · simp [Memory.find?]
      · rename_i h
        simp [Memory.find?, h, ih]

theorem Memory.find?_insert_other (m : Memory) {a b : Nat} (v : Sample) (h : b ≠ a) :
    (m.insert a v).find? b = m.find? b := by
  induction m with
  | nil => simp [Memory.insert, Memory.find?, h]
  | cons cell rest ih =>
    obtain ⟨c, u⟩ := cell
    unfold Memory.insert
    split
    · simp [Memory.find?, h]
    · split
      · rename_i hc
        subst hc
        simp [Memory.find?, h]
      · simp [Memory.find?, ih]

/-- A cell of the memory after an insertion is the new cell or an old one. -/
theorem Memory.mem_insert (m : Memory) (a : Nat) (v : Sample) (cell : Nat × Sample) (h : cell ∈ m.insert a v) :
    cell = (a, v) ∨ cell ∈ m := by
  induction m with
  | nil => simpa [Memory.insert] using h
  | cons hd rest ih =>
    obtain ⟨b, u⟩ := hd
    unfold Memory.insert at h
    split at h
    · simpa using h
    · split at h
      · rcases List.mem_cons.1 h with h | h
        · exact .inl h
        · exact .inr (List.mem_cons_of_mem _ h)
      · rcases List.mem_cons.1 h with h | h
        · exact .inr (h ▸ List.mem_cons_self)
        · exact (ih h).imp id (List.mem_cons_of_mem _)

/-- `insert` keeps the canonical form. -/
theorem Memory.wf_insert (m : Memory) (a : Nat) (v : Sample) (h : m.wf = true) : (m.insert a v).wf = true := by
  induction m with
  | nil => simp [Memory.insert, Memory.wf]
  | cons hd rest ih =>
    obtain ⟨b, u⟩ := hd
    simp only [Memory.wf, Bool.and_eq_true, List.all_eq_true, decide_eq_true_eq] at h
    unfold Memory.insert
    split
    · rename_i hab
      simp only [Memory.wf, Bool.and_eq_true, List.all_eq_true, decide_eq_true_eq, List.mem_cons, forall_eq_or_imp]
      exact ⟨⟨hab, fun c hc => hab.trans (h.1 c hc)⟩, h⟩
    · split
      · rename_i hab
        subst hab
        simpa only [Memory.wf, Bool.and_eq_true, List.all_eq_true, decide_eq_true_eq] using h
      · rename_i hlt hne
        simp only [Memory.wf, Bool.and_eq_true, List.all_eq_true, decide_eq_true_eq]
        refine ⟨fun c hc => ?_, ih h.2⟩
        rcases Memory.mem_insert rest a v c hc with rfl | hc
        · exact Nat.lt_of_le_of_ne (Nat.le_of_not_lt hlt) (Ne.symm hne)
        · exact h.1 c hc

/-- `insertAll` keeps the canonical form. -/
theorem Memory.wf_insertAll (ws : List (Nat × Sample)) :
    ∀ m : Memory, m.wf = true → (m.insertAll ws).wf = true := by
  induction ws with
  | nil => exact fun m h => h
  | cons w rest ih => exact fun m h => ih _ (Memory.wf_insert m w.1 w.2 h)

/-- A cell of the memory after a sequence of writes is one of the writes or an old cell. -/
theorem Memory.mem_insertAll (ws : List (Nat × Sample)) :
    ∀ (m : Memory) (cell : Nat × Sample), cell ∈ m.insertAll ws → cell ∈ ws ∨ cell ∈ m := by
  induction ws with
  | nil => exact fun m cell h => .inr h
  | cons w rest ih =>
    intro m cell h
    rcases ih _ _ h with h | h
    · exact .inl (List.mem_cons_of_mem _ h)
    · rcases Memory.mem_insert m w.1 w.2 cell h with h | h
      · exact .inl (h ▸ List.mem_cons_self)
      · exact .inr h

/-- Writes leave every address they do not name as it was. -/
theorem Memory.find?_insertAll_other (ws : List (Nat × Sample)) (a : Nat) (h : ∀ w ∈ ws, w.1 ≠ a) :
    ∀ m : Memory, (m.insertAll ws).find? a = m.find? a := by
  induction ws with
  | nil => exact fun m => rfl
  | cons w rest ih =>
    intro m
    exact (ih (fun w' hw' => h w' (List.mem_cons_of_mem _ hw')) _).trans
      (Memory.find?_insert_other m w.2 (Ne.symm (h w List.mem_cons_self)))

/-- An address that the writes name, always with the same value, holds that value afterwards. -/
theorem Memory.find?_insertAll_same (ws : List (Nat × Sample)) (a : Nat) (v : Sample) (hmem : (a, v) ∈ ws)
    (huniq : ∀ w ∈ ws, w.1 = a → w.2 = v) : ∀ m : Memory, (m.insertAll ws).find? a = some v := by
  induction ws with
  | nil => cases hmem
  | cons w rest ih =>
    intro m
    by_cases hr : ∃ w' ∈ rest, w'.1 = a
    · obtain ⟨w', hw', ha⟩ := hr
      have hv := huniq w' (List.mem_cons_of_mem _ hw') ha
      have : (a, v) ∈ rest := by rw [← ha, ← hv]; exact hw'
      exact ih this (fun x hx => huniq x (List.mem_cons_of_mem _ hx)) _
    · have hw : w = (a, v) := by
        rcases List.mem_cons.1 hmem with h | h
        · exact h.symm
        · exact absurd ⟨_, h, rfl⟩ hr
      subst hw
      exact (Memory.find?_insertAll_other rest a (fun w' hw' ha => hr ⟨w', hw', ha⟩) _).trans
        (Memory.find?_insert_same m a v)

/-! ## Reads and writes of one sample (R62) -/

@[simp] theorem State.memRead_memWrite_same (s : State) (a : Nat) (v : Sample) : (s.memWrite a v).memRead a = v := by
  simp [State.memRead, State.memWrite, Memory.find?_insert_same]

theorem State.memRead_memWrite_other (s : State) {a b : Nat} (v : Sample) (h : b ≠ a) :
    (s.memWrite a v).memRead b = s.memRead b := by
  simp [State.memRead, State.memWrite, Memory.find?_insert_other s.mem v h]

theorem State.memRead_memWriteAll_other (s : State) (ws : List (Nat × Sample)) (a : Nat) (h : ∀ w ∈ ws, w.1 ≠ a) :
    (s.memWriteAll ws).memRead a = s.memRead a := by
  simp [State.memRead, State.memWriteAll, Memory.find?_insertAll_other ws a h]

theorem State.memRead_memWriteAll_same (s : State) (ws : List (Nat × Sample)) (a : Nat) (v : Sample) (hmem : (a, v) ∈ ws)
    (huniq : ∀ w ∈ ws, w.1 = a → w.2 = v) : (s.memWriteAll ws).memRead a = v := by
  simp [State.memRead, State.memWriteAll, Memory.find?_insertAll_same ws a v hmem huniq]

/-! ## Addresses of an image (R67) -/

@[simp] theorem mem_rowMajor (h w : Nat) (p : Nat × Nat) : p ∈ rowMajor h w ↔ p.1 < h ∧ p.2 < w := by
  obtain ⟨r, c⟩ := p
  simp only [rowMajor, List.mem_flatMap, List.mem_range, List.mem_map, Prod.mk.injEq]
  constructor
  · rintro ⟨r', hr, c', hc, rfl, rfl⟩
    exact ⟨hr, hc⟩
  · exact fun ⟨hr, hc⟩ => ⟨r, hr, c, hc, rfl, rfl⟩

/-- A position inside an image has its address inside the image's region. -/
theorem Desc.idx_lt_limit (d : Desc) {row col ch : Nat} (hr : row < d.h.toNat) (hc : col < d.w.toNat)
    (hch : ch < d.c.toNat) : d.idx row col ch < d.limit := by
  have h1 : row * d.w.toNat + col + 1 ≤ d.h.toNat * d.w.toNat := by
    calc row * d.w.toNat + col + 1 ≤ row * d.w.toNat + d.w.toNat := by omega
      _ = (row + 1) * d.w.toNat := by rw [Nat.succ_mul]
      _ ≤ d.h.toNat * d.w.toNat := Nat.mul_le_mul_right _ hr
  have h2 : (row * d.w.toNat + col) * d.c.toNat + ch + 1 ≤ d.h.toNat * d.w.toNat * d.c.toNat := by
    calc (row * d.w.toNat + col) * d.c.toNat + ch + 1 ≤ (row * d.w.toNat + col) * d.c.toNat + d.c.toNat := by omega
      _ = (row * d.w.toNat + col + 1) * d.c.toNat := by rw [Nat.succ_mul]
      _ ≤ d.h.toNat * d.w.toNat * d.c.toNat := Nat.mul_le_mul_right _ h1
  simp only [Desc.idx, Desc.limit, Desc.samples]
  rw [Nat.mul_comm d.w.toNat d.h.toNat]
  omega

theorem Desc.base_le_idx (d : Desc) (row col ch : Nat) : d.base.toNat ≤ d.idx row col ch := by
  simp only [Desc.idx]
  omega

/-- Two positions of an image with the same address are the same position. -/
theorem Desc.idx_inj (d : Desc) {row col ch row' col' ch' : Nat} (hc : col < d.w.toNat) (hch : ch < d.c.toNat)
    (hc' : col' < d.w.toNat) (hch' : ch' < d.c.toNat) (h : d.idx row col ch = d.idx row' col' ch') :
    row = row' ∧ col = col' ∧ ch = ch' := by
  have h0 : (row * d.w.toNat + col) * d.c.toNat + ch = (row' * d.w.toNat + col') * d.c.toNat + ch' := by
    simp only [Desc.idx] at h
    omega
  have hcpos : 0 < d.c.toNat := by omega
  have hwpos : 0 < d.w.toNat := by omega
  have e1 : ch = ch' := by
    have := congrArg (· % d.c.toNat) h0
    simpa [Nat.mul_add_mod_of_lt, Nat.mod_eq_of_lt hch, Nat.mod_eq_of_lt hch', Nat.add_mod] using this
  have e2 : row * d.w.toNat + col = row' * d.w.toNat + col' := by
    subst e1
    exact Nat.eq_of_mul_eq_mul_right hcpos (by omega)
  have e3 : col = col' := by
    have := congrArg (· % d.w.toNat) e2
    simpa [Nat.mod_eq_of_lt hc, Nat.mod_eq_of_lt hc', Nat.add_mod] using this
  subst e3
  exact ⟨Nat.eq_of_mul_eq_mul_right hwpos (by omega), rfl, e1⟩

/-! ## What the image writes leave in memory -/

/-- `writeChannel` stores `v row col` at the address of every position. -/
theorem State.memRead_writeChannel (s : State) (d : Desc) (ch : Nat) (v : Nat → Nat → Sample) {row col : Nat}
    (hr : row < d.h.toNat) (hc : col < d.w.toNat) (hch : ch < d.c.toNat) :
    (s.writeChannel d ch v).memRead (d.idx row col ch) = v row col := by
  apply State.memRead_memWriteAll_same
  · exact List.mem_map.2 ⟨(row, col), (mem_rowMajor _ _ _).2 ⟨hr, hc⟩, rfl⟩
  · intro w hw ha
    obtain ⟨⟨r', c'⟩, hp, rfl⟩ := List.mem_map.1 hw
    have hp' := (mem_rowMajor _ _ _).1 hp
    obtain ⟨rfl, rfl, -⟩ := d.idx_inj hp'.2 hch hc hch ha
    rfl

/-- `writeChannel` leaves every other address as it was. -/
theorem State.memRead_writeChannel_other (s : State) (d : Desc) (ch : Nat) (v : Nat → Nat → Sample) (a : Nat)
    (h : ∀ row col, row < d.h.toNat → col < d.w.toNat → d.idx row col ch ≠ a) :
    (s.writeChannel d ch v).memRead a = s.memRead a := by
  apply State.memRead_memWriteAll_other
  intro w hw
  obtain ⟨p, hp, rfl⟩ := List.mem_map.1 hw
  have hp' := (mem_rowMajor _ _ _).1 hp
  exact h p.1 p.2 hp'.1 hp'.2

/-- `writeImage` stores `v k` at the k-th address of the image. -/
theorem State.memRead_writeImage (s : State) (d : Desc) (v : Nat → Sample) {k : Nat} (hk : k < d.samples) :
    (s.writeImage d v).memRead (d.base.toNat + k) = v k := by
  apply State.memRead_memWriteAll_same
  · exact List.mem_map.2 ⟨k, List.mem_range.2 hk, rfl⟩
  · intro w hw ha
    obtain ⟨k', hk', rfl⟩ := List.mem_map.1 hw
    have : k' = k := by simpa using ha
    rw [this]

/-- `writeImage` leaves every address outside the region as it was. -/
theorem State.memRead_writeImage_other (s : State) (d : Desc) (v : Nat → Sample) (a : Nat)
    (h : a < d.base.toNat ∨ d.limit ≤ a) : (s.writeImage d v).memRead a = s.memRead a := by
  apply State.memRead_memWriteAll_other
  intro w hw
  obtain ⟨k, hk, rfl⟩ := List.mem_map.1 hw
  have := List.mem_range.1 hk
  simp only [Desc.limit] at h
  simp only
  omega

/-- The three writes of a pixel. -/
theorem mem_pixelWrites (d : Desc) (v : Nat → Nat → Nat → Sample) (w : Nat × Sample) :
    (w ∈ (rowMajor d.h.toNat d.w.toNat).flatMap fun p =>
      [(d.idx p.1 p.2 0, v p.1 p.2 0), (d.idx p.1 p.2 1, v p.1 p.2 1), (d.idx p.1 p.2 2, v p.1 p.2 2)]) ↔
    ∃ row col ch, row < d.h.toNat ∧ col < d.w.toNat ∧ ch < 3 ∧ w = (d.idx row col ch, v row col ch) := by
  simp only [List.mem_flatMap, mem_rowMajor, List.mem_cons, List.not_mem_nil, or_false]
  constructor
  · rintro ⟨p, ⟨hr, hc⟩, h | h | h⟩
    · exact ⟨p.1, p.2, 0, hr, hc, by omega, h⟩
    · exact ⟨p.1, p.2, 1, hr, hc, by omega, h⟩
    · exact ⟨p.1, p.2, 2, hr, hc, by omega, h⟩
  · rintro ⟨row, col, ch, hr, hc, hch, h⟩
    refine ⟨(row, col), ⟨hr, hc⟩, ?_⟩
    match ch, hch, h with
    | 0, _, h => exact .inl h
    | 1, _, h => exact .inr (.inl h)
    | 2, _, h => exact .inr (.inr h)

/-- `writePixels` stores `v row col ch` at the address of every sample of a three-channel image. -/
theorem State.memRead_writePixels (s : State) (d : Desc) (v : Nat → Nat → Nat → Sample) (h3 : d.c.toNat = 3)
    {row col ch : Nat} (hr : row < d.h.toNat) (hc : col < d.w.toNat) (hch : ch < 3) :
    (s.writePixels d v).memRead (d.idx row col ch) = v row col ch := by
  apply State.memRead_memWriteAll_same
  · exact (mem_pixelWrites d v _).2 ⟨row, col, ch, hr, hc, hch, rfl⟩
  · intro w hw ha
    obtain ⟨r', c', ch', hr', hc', hch', rfl⟩ := (mem_pixelWrites d v w).1 hw
    obtain ⟨rfl, rfl, rfl⟩ := d.idx_inj hc' (h3 ▸ hch') hc (h3 ▸ hch) ha
    rfl

/-- `writePixels` leaves every address outside the region of a three-channel image as it was. -/
theorem State.memRead_writePixels_other (s : State) (d : Desc) (v : Nat → Nat → Nat → Sample) (h3 : d.c.toNat = 3)
    (a : Nat) (h : a < d.base.toNat ∨ d.limit ≤ a) : (s.writePixels d v).memRead a = s.memRead a := by
  apply State.memRead_memWriteAll_other
  intro w hw
  obtain ⟨r, c, ch, hr, hc, hch, rfl⟩ := (mem_pixelWrites d v w).1 hw
  have h1 := d.idx_lt_limit hr hc (h3 ▸ hch)
  have h2 := d.base_le_idx r c ch
  simp only
  omega

end Sys2Proof.Machine
end

