-- ==== Sys2Proof/Laws/Outputs.lean ====
section
/-! SUPPORT. The outputs of a command: the free values of R9 and R10 reduce to the rule's value when every input is finite,
and when the inputs of each operand form are finite. -/

namespace Sys2Proof.Machine

/-! ## The same sample up to the sign of a zero -/

@[simp] theorem sameSample_refl (x : Sample) : sameSample x x := .inl rfl

@[simp] theorem sameGrid_refl (g : Grid) : sameGrid g g := fun _ _ _ _ => sameSample_refl _

/-- Giving a zero another sign gives the same sample. -/
theorem sameSample_freeZero (s : State) (place : Nat) (v : Sample) : sameSample (s.freeZero place v) v := by
  unfold State.freeZero
  split
  · rename_i hz
    refine .inr ⟨?_, hz⟩
    cases s.zeroSigns.testBit (s.freeCount * 2 ^ 40 + place) <;> decide
  · exact .inl rfl

/-- A computed output of finite inputs is the rule's value up to the sign of a zero. -/
@[simp] theorem sameSample_computed (s : State) (place : Nat) (v : Sample) : sameSample (s.computed true place v) v :=
  sameSample_freeZero s place v

/-! ## Grids -/

@[simp] theorem movedGrid_finite (s : State) (nth : Nat) (g : Grid) : s.movedGrid true nth g = g :=
  by simp [State.movedGrid]

theorem gridAt_computedGrid (s : State) (finite : Bool) (nth : Nat) (g : Grid) {i j : Nat} (hi : i < 8) (hj : j < 8) :
    gridAt (s.computedGrid finite nth g) i j = s.computed finite (64 * nth + 8 * i + j) (gridAt g i j) := by
  simp [State.computedGrid, hi, hj]

@[simp] theorem sameGrid_computedGrid (s : State) (nth : Nat) (g : Grid) : sameGrid (s.computedGrid true nth g) g :=
  fun i j hi hj => by simp [gridAt_computedGrid s true nth g hi hj]

/-- The samples of a grid, place by place. -/
theorem gridSamples_eq {S : Type} (g : GridOf S) :
    gridSamples g = (List.range 64).map fun k => gridAt g (k / 8) (k % 8) := by
  apply List.ext_getElem
  · simp [gridSamples]
  · intro k h1 h2
    have hk : k < 64 := by simpa using h2
    have e : 8 * (k / 8 % 8) + k % 8 = k := by omega
    simp [gridSamples, gridAt, e]

/-! ## Finite inputs (R10) -/

theorem allFinite_iff (xs : List Sample) : allFinite xs = true ↔ ∀ x ∈ xs, Binary64.isFinite x = true := by
  simp [allFinite]

theorem allFinite_append (xs ys : List Sample) : allFinite (xs ++ ys) = (allFinite xs && allFinite ys) := by
  simp [allFinite]

theorem allFinite_cons (x : Sample) (xs : List Sample) : allFinite (x :: xs) = (Binary64.isFinite x && allFinite xs) := by
  simp [allFinite]

theorem allFinite_gridSamples (g : Grid) : allFinite (gridSamples g) = true ↔ FiniteGrid g := by
  rw [allFinite_iff, gridSamples_eq]
  simp only [List.mem_map, List.mem_range, forall_exists_index, and_imp, forall_apply_eq_imp_iff₂]
  constructor
  · intro h i hi j hj
    have := h (8 * i + j) (by omega)
    rwa [show (8 * i + j) / 8 = i by omega, show (8 * i + j) % 8 = j by omega] at this
  · exact fun h k hk => h (k / 8) (by omega) (k % 8) (by omega)

theorem allFinite_channelSamples (s : State) (d : Desc) (ch : Nat) :
    allFinite (s.channelSamples d ch) = true ↔ s.finiteChannel d ch := by
  rw [allFinite_iff]
  constructor
  · exact fun h row hr col hc => h _ (List.mem_map.2 ⟨(row, col), (mem_rowMajor _ _ _).2 ⟨hr, hc⟩, rfl⟩)
  · intro h x hx
    obtain ⟨p, hp, rfl⟩ := List.mem_map.1 hx
    have := (mem_rowMajor _ _ _).1 hp
    exact h p.1 this.1 p.2 this.2

theorem allFinite_imageSamples (s : State) (d : Desc) : allFinite (s.imageSamples d) = true ↔ s.finiteImage d := by
  rw [allFinite_iff]
  simp [State.imageSamples]

theorem allFinite_blockWrites (d : Desc) (bx by' ch : Nat) (g : Grid) :
    allFinite ((blockWrites d bx by' ch g).map (·.2)) = true ↔
      ∀ i, i < 8 → ∀ j, j < 8 → blockInside d bx by' i j = true → Binary64.isFinite (gridAt g i j) = true := by
  rw [allFinite_iff]
  simp only [blockWrites, List.map_map, List.mem_map, List.mem_filter, mem_rowMajor, Function.comp]
  constructor
  · exact fun h i hi j hj hb => h _ ⟨(i, j), ⟨⟨hi, hj⟩, hb⟩, rfl⟩
  · rintro h _ ⟨⟨i, j⟩, ⟨⟨hi, hj⟩, hb⟩, rfl⟩
    exact h i hi j hj hb

theorem allFinite_blockSamples (s : State) (d : Desc) (bx by' ch : Nat) :
    allFinite (s.blockSamples d bx by' ch) = true ↔
      ∀ i j, i < 8 → j < 8 → 8 * by' + i < d.h.toNat → 8 * bx + j < d.w.toNat →
        Binary64.isFinite (s.memRead (d.idx (8 * by' + i) (8 * bx + j) ch)) = true := by
  rw [allFinite_iff]
  simp only [State.blockSamples, State.pixel, blockInside, List.mem_map, List.mem_filter, mem_rowMajor, Bool.and_eq_true,
    decide_eq_true_eq, forall_exists_index, and_imp, Prod.forall]
  constructor
  · exact fun h i j hi hj hr hc => h _ i j hi hj hr hc rfl
  · rintro h x i j hi hj hr hc rfl
    exact h i j hi hj hr hc

/-! ## Reading memory through updates that do not write it -/

@[simp] theorem memRead_complete (s : State) (a : Nat) : s.complete.memRead a = s.memRead a := rfl

@[simp] theorem memRead_begin (s : State) (a : Nat) : s.begin.memRead a = s.memRead a := rfl

@[simp] theorem memRead_raise (s : State) (w : Word) (f : FaultCode) (a : Nat) : (s.raise w f).memRead a = s.memRead a := rfl

@[simp] theorem memRead_setMismatch (s : State) (b : Bool) (a : Nat) : (s.setMismatch b).memRead a = s.memRead a := rfl

@[simp] theorem memRead_setResults (s : State) (x y : Sample) (a : Nat) : (s.setResults x y).memRead a = s.memRead a := rfl

@[simp] theorem memRead_setGrid (s : State) (n : RegNum) (g : Grid) (a : Nat) : (s.setGrid n g).memRead a = s.memRead a :=
  rfl

@[simp] theorem memRead_setDesc (s : State) (n : RegNum) (d : Desc) (a : Nat) : (s.setDesc n d).memRead a = s.memRead a :=
  rfl

/-! ## Legal descriptors (R23) -/

theorem Desc.legal_iff (n : Nat) (d : Desc) :
    d.legal n = true ↔ 0 < d.w.toNat ∧ 0 < d.h.toNat ∧ 0 < d.c.toNat ∧ d.limit ≤ n := by
  simp [Desc.legal, and_assoc]

end Sys2Proof.Machine
end

