-- ==== Sys2Proof/Laws/PerInstr.lean ====
section
/-! SUPPORT. Facts about every command as syntax, one lemma per constructor. Family `EncodingRow`: the word of a command
matches its row of the opcode map (spec/30_encoding.md R91, R94): outside the fields of its format it is `op << 24`. -/

namespace Sys2Proof.Laws.EncodingRow

/-- The word of the command matches its row's mask and match value, and its `op` field is the row's opcode. -/
def Statement (i : Instr) : Prop :=
  encode i &&& i.format.mask = i.opcode.setWidth 32 <<< 24 ∧ opField (encode i) = i.opcode

/-- The fields of `assemble` in the places of R90; `w &&& mask` for a mask that keeps none of them is the opcode alone. -/
theorem opField_assemble (op : BitVec 8) (a b c : RegNum) (m : BitVec 2) : opField (assemble op a b c m) = op := by
  apply BitVec.eq_of_getLsbD_eq
  intro k hk
  unfold opField assemble
  rw [BitVec.getLsbD_extractLsb']
  simp only [BitVec.getLsbD_append]
  have h1 : ¬ (24 + k < 13) := by omega
  have h2 : ¬ (24 + k - 13 < 2) := by omega
  have h3 : ¬ (24 + k - 13 - 2 < 3) := by omega
  have h4 : ¬ (24 + k - 13 - 2 - 3 < 3) := by omega
  have h5 : ¬ (24 + k - 13 - 2 - 3 - 3 < 3) := by omega
  have h6 : 24 + k - 13 - 2 - 3 - 3 - 3 = k := by omega
  simp [h1, h2, h3, h4, h5, h6, hk]

theorem nop : Statement (.nop) := by
  unfold Statement
  decide

theorem config : Statement (.config) := by
  unfold Statement
  decide

theorem dset (dd : RegNum) : Statement (.dset dd) := by
  refine ⟨?_, opField_assemble _ _ _ _ _⟩
  decide +revert

theorem gld (gd : RegNum) (ds : RegNum) : Statement (.gld gd ds) := by
  refine ⟨?_, opField_assemble _ _ _ _ _⟩
  decide +revert

theorem gst (dd : RegNum) (gs : RegNum) : Statement (.gst dd gs) := by
  refine ⟨?_, opField_assemble _ _ _ _ _⟩
  decide +revert

theorem gmov (gd : RegNum) (gs : RegNum) : Statement (.gmov gd gs) := by
  refine ⟨?_, opField_assemble _ _ _ _ _⟩
  decide +revert

theorem gzero (gd : RegNum) : Statement (.gzero gd) := by
  refine ⟨?_, opField_assemble _ _ _ _ _⟩
  decide +revert

theorem gqt (gd : RegNum) (t : TableSel) : Statement (.gqt gd t) := by
  refine ⟨?_, opField_assemble _ _ _ _ _⟩
  cases t <;> decide +revert

theorem split (dd : RegNum) (ds : RegNum) : Statement (.split dd ds) := by
  refine ⟨?_, opField_assemble _ _ _ _ _⟩
  decide +revert

theorem merge (dd : RegNum) (ds : RegNum) : Statement (.merge dd ds) := by
  refine ⟨?_, opField_assemble _ _ _ _ _⟩
  decide +revert

theorem copy (dd : RegNum) (ds : RegNum) : Statement (.copy dd ds) := by
  refine ⟨?_, opField_assemble _ _ _ _ _⟩
  decide +revert

theorem cscF (dd : RegNum) (ds : RegNum) : Statement (.cscF dd ds) := by
  refine ⟨?_, opField_assemble _ _ _ _ _⟩
  decide +revert

theorem cscI (dd : RegNum) (ds : RegNum) : Statement (.cscI dd ds) := by
  refine ⟨?_, opField_assemble _ _ _ _ _⟩
  decide +revert

theorem dctF (gd : RegNum) (gs : RegNum) : Statement (.dctF gd gs) := by
  refine ⟨?_, opField_assemble _ _ _ _ _⟩
  decide +revert

theorem dctI (gd : RegNum) (gs : RegNum) : Statement (.dctI gd gs) := by
  refine ⟨?_, opField_assemble _ _ _ _ _⟩
  decide +revert

theorem haar8F (gd : RegNum) (gs : RegNum) : Statement (.haar8F gd gs) := by
  refine ⟨?_, opField_assemble _ _ _ _ _⟩
  decide +revert

theorem haar8I (gd : RegNum) (gs : RegNum) : Statement (.haar8I gd gs) := by
  refine ⟨?_, opField_assemble _ _ _ _ _⟩
  decide +revert

theorem dwtLev (ds : RegNum) : Statement (.dwtLev ds) := by
  refine ⟨?_, opField_assemble _ _ _ _ _⟩
  decide +revert

theorem dwtF (dd : RegNum) (ds : RegNum) : Statement (.dwtF dd ds) := by
  refine ⟨?_, opField_assemble _ _ _ _ _⟩
  decide +revert

theorem dwtI (dd : RegNum) (ds : RegNum) : Statement (.dwtI dd ds) := by
  refine ⟨?_, opField_assemble _ _ _ _ _⟩
  decide +revert

theorem qBlk (gd : RegNum) (gs : RegNum) (t : TableSel) : Statement (.qBlk gd gs t) := by
  refine ⟨?_, opField_assemble _ _ _ _ _⟩
  cases t <;> decide +revert

theorem dqBlk (gd : RegNum) (gs : RegNum) (t : TableSel) : Statement (.dqBlk gd gs t) := by
  refine ⟨?_, opField_assemble _ _ _ _ _⟩
  cases t <;> decide +revert

theorem qwBlk (gd : RegNum) (gs : RegNum) : Statement (.qwBlk gd gs) := by
  refine ⟨?_, opField_assemble _ _ _ _ _⟩
  decide +revert

theorem dqwBlk (gd : RegNum) (gs : RegNum) : Statement (.dqwBlk gd gs) := by
  refine ⟨?_, opField_assemble _ _ _ _ _⟩
  decide +revert

theorem qwPln (dd : RegNum) (ds : RegNum) : Statement (.qwPln dd ds) := by
  refine ⟨?_, opField_assemble _ _ _ _ _⟩
  decide +revert

theorem dqwPln (dd : RegNum) (ds : RegNum) : Statement (.dqwPln dd ds) := by
  refine ⟨?_, opField_assemble _ _ _ _ _⟩
  decide +revert

theorem bitsBlk (gs : RegNum) : Statement (.bitsBlk gs) := by
  refine ⟨?_, opField_assemble _ _ _ _ _⟩
  decide +revert

theorem bitsPln (ds : RegNum) : Statement (.bitsPln ds) := by
  refine ⟨?_, opField_assemble _ _ _ _ _⟩
  decide +revert

theorem cdown (dd : RegNum) (ds : RegNum) (m : BitVec 2) : Statement (.cdown dd ds m) := by
  refine ⟨?_, opField_assemble _ _ _ _ _⟩
  decide +revert

theorem cup (dd : RegNum) (ds : RegNum) (m : BitVec 2) : Statement (.cup dd ds m) := by
  refine ⟨?_, opField_assemble _ _ _ _ _⟩
  decide +revert

theorem procPln (dd : RegNum) (ds : RegNum) (t : TableSel) : Statement (.procPln dd ds t) := by
  refine ⟨?_, opField_assemble _ _ _ _ _⟩
  cases t <;> decide +revert

theorem inspect (ds : RegNum) (t : TableSel) : Statement (.inspect ds t) := by
  refine ⟨?_, opField_assemble _ _ _ _ _⟩
  cases t <;> decide +revert

theorem psnr (da : RegNum) (db : RegNum) : Statement (.psnr da db) := by
  refine ⟨?_, opField_assemble _ _ _ _ _⟩
  decide +revert

theorem ssim (da : RegNum) (db : RegNum) : Statement (.ssim da db) := by
  refine ⟨?_, opField_assemble _ _ _ _ _⟩
  decide +revert

theorem artmap (dd : RegNum) (da : RegNum) (db : RegNum) : Statement (.artmap dd da db) := by
  refine ⟨?_, opField_assemble _ _ _ _ _⟩
  decide +revert

end Sys2Proof.Laws.EncodingRow
end

