-- ==== Sys2Proof/Laws/Shared.lean ====
section
/-! SUPPORT. What each operation that several commands share can do, said once: if it answers a next state, then one of the
listed cases holds. -/

namespace Sys2Proof.Machine

/-- A command from grid to grid. -/
theorem gridTransform_cases {cmd : Instr} {gd gs : RegNum} {f : Grid → Grid} {s t : State}
    (h : gridTransform cmd gd gs f s = .next t) :
    (s.gridValid gs = false ∧ t = s.raise (encode cmd) .uninit)
    ∨ (s.gridValid gs = true
      ∧ t = (s.setGrid gd (s.computedGrid (allFinite (gridSamples (s.grid gs))) 0 (f (s.grid gs)))).complete) := by
  cases hv : s.gridValid gs
  · exact .inl ⟨rfl, by simpa [gridTransform, run, needGrid, hv] using h.symm⟩
  · exact .inr ⟨rfl, by simpa [gridTransform, run, needGrid, hv, completes] using h.symm⟩

/-- A grid combined with a table. -/
theorem tableCommand_cases {cmd : Instr} {gd gs : RegNum} {sel : TableSel} {f : Sample → Sample → Sample} {s t : State}
    (h : tableCommand cmd gd gs sel f s = .next t) :
    ((s.gridValid gs = false ∨ s.status.cfgv = false) ∧ t = s.raise (encode cmd) .uninit)
    ∨ (s.gridValid gs = true ∧ s.status.cfgv = true
      ∧ t = (s.setGrid gd (s.computedGrid (allFinite (gridSamples (s.grid gs) ++ gridSamples (s.table sel))) 0
          (gridZip f (s.grid gs) (s.table sel)))).complete) := by
  cases hv : s.gridValid gs <;> cases hc : s.status.cfgv <;>
    simp_all [tableCommand, run, needGrid, needConfig, completes]

/-- A grid combined with the block step map. -/
theorem waveletCommand_cases {cmd : Instr} {gd gs : RegNum} {f : Sample → Sample → Sample} {s t : State}
    (h : waveletCommand cmd gd gs f s = .next t) :
    ((s.gridValid gs = false ∨ s.status.cfgv = false) ∧ t = s.raise (encode cmd) .uninit)
    ∨ (s.gridValid gs = true ∧ s.status.cfgv = true
      ∧ t = (s.setGrid gd (s.computedGrid (allFinite (s.basestep :: gridSamples (s.grid gs))) 0
          (gridZip f (s.grid gs) (blockSteps Binary64.num s.basestep)))).complete) := by
  cases hv : s.gridValid gs <;> cases hc : s.status.cfgv <;>
    simp_all [waveletCommand, run, needGrid, needConfig, completes]

/-- The colour converters' effects: both descriptors legal, every pixel of the destination written. -/
theorem cscEffects_cases {dd ds : RegNum} {f : Sample → Sample → Sample → Sample × Sample × Sample} {s t : State}
    (h : cscEffects s dd ds f = .next t) :
    (s.desc dd).legal s.memSamples = true ∧ (s.desc ds).legal s.memSamples = true
    ∧ ∃ v, t = (s.writePixels (s.desc dd) v).complete := by
  obtain ⟨hl, h⟩ := reaching_cases h
  simp only [List.all_cons, List.all_nil, Bool.and_true, Bool.and_eq_true] at hl
  exact ⟨hl.1, hl.2, _, completes_cases h⟩

/-- The full-image wavelet's effects: both descriptors legal, every sample of the destination plane written. -/
theorem dwtEffects_cases {dd ds : RegNum} {f : Nat → Nat → Nat → Plane Sample → Plane Sample} {s t : State}
    (h : dwtEffects s dd ds f = .next t) :
    (s.desc dd).legal s.memSamples = true ∧ (s.desc ds).legal s.memSamples = true
    ∧ ∃ v, t = (s.writeChannel (s.desc dd) 0 v).complete := by
  obtain ⟨hl, h⟩ := reaching_cases h
  simp only [List.all_cons, List.all_nil, Bool.and_true, Bool.and_eq_true] at hl
  exact ⟨hl.1, hl.2, _, completes_cases h⟩

/-- The plane quantisers' effects: both descriptors legal, every sample of the destination plane written. -/
theorem waveletPlaneEffects_cases {dd ds : RegNum} {f : Sample → Sample → Sample} {s t : State}
    (h : waveletPlaneEffects s dd ds f = .next t) :
    (s.desc dd).legal s.memSamples = true ∧ (s.desc ds).legal s.memSamples = true
    ∧ ∃ v, t = (s.writeChannel (s.desc dd) 0 v).complete := by
  obtain ⟨hl, h⟩ := reaching_cases h
  simp only [List.all_cons, List.all_nil, Bool.and_true, Bool.and_eq_true] at hl
  exact ⟨hl.1, hl.2, _, completes_cases h⟩

/-- Issuing a word: ignored on a halted block, rejected if it decodes to nothing, else the command run. -/
theorem issue_cases {w : Word} {s t : State} (h : issue w s = .next t) :
    (s.status.fault = true ∧ t = s)
    ∨ (s.status.fault = false ∧ ∃ e, decode w = .error e ∧ t = s.begin.raise w .illegalCmd)
    ∨ (s.status.fault = false ∧ ∃ i, decode w = .ok i ∧ exec i s.begin = .next t) := by
  unfold issue at h
  split at h
  · rename_i hf
    exact .inl ⟨hf, by simpa using h.symm⟩
  · rename_i hf
    have hf' : s.status.fault = false := by simpa using hf
    split at h
    · rename_i e he
      exact .inr (.inl ⟨hf', e, he, by simpa using h.symm⟩)
    · rename_i i hi
      exact .inr (.inr ⟨hf', i, hi, h⟩)

/-- Everything a step can do: nothing with an empty script, else the host's next action. -/
theorem step_cases {s t : State} (h : step s = .next t) :
    (s.script = [] ∧ t = s) ∨ ∃ a rest, s.script = a :: rest ∧ act a { s with script := rest } = .next t := by
  unfold step takeAction at h
  split at h
  · rename_i hs
    exact .inl ⟨hs, by simpa using h.symm⟩
  · rename_i a rest hs
    exact .inr ⟨a, rest, hs, h⟩

/-- A host action other than the issue of a command always has a next state: a read or a refused action changes only the
response, a write or a reset its own registers or address. -/
theorem act_cases {a : HostAction} {s t : State} (h : act a s = .next t) :
    (∃ v, a = .regWrite cmdIndex v ∧ issue (v.setWidth 32) (s.respond .done) = .next t)
    ∨ (∃ r, t = s.respond r)
    ∨ (∃ i v u, a = .regWrite i v ∧ i ≠ cmdIndex ∧ s.regWrite i v = some u ∧ t = u.respond .done)
    ∨ (∃ b v, a = .memWrite b v ∧ b.toNat < s.memSamples ∧ t = (s.memWrite b.toNat v).respond .done)
    ∨ (a = .resetInput ∧ t = s.doReset.respond .done) := by
  cases a with
  | regRead i =>
    simp only [act, State.answer, Host.Outcome.next.injEq] at h
    split at h <;> exact .inr (.inl ⟨_, h.symm⟩)
  | regWrite i v =>
    simp only [act] at h
    split at h
    · rename_i hi
      exact .inl ⟨v, by rw [hi], h⟩
    · rename_i hi
      simp only [State.accept, Host.Outcome.next.injEq] at h
      split at h
      · rename_i u hu
        exact .inr (.inr (.inl ⟨i, v, u, rfl, hi, hu, h.symm⟩))
      · exact .inr (.inl ⟨_, h.symm⟩)
  | memRead b =>
    simp only [act, State.answer, Host.Outcome.next.injEq] at h
    split at h <;> exact .inr (.inl ⟨_, h.symm⟩)
  | memWrite b v =>
    simp only [act, State.hostMemWrite, State.accept, Host.Outcome.next.injEq] at h
    by_cases hb : b.toNat < s.memSamples
    · simp only [hb, if_true] at h
      exact .inr (.inr (.inr (.inl ⟨b, v, rfl, hb, h.symm⟩)))
    · simp only [hb, if_false] at h
      exact .inr (.inl ⟨_, h.symm⟩)
  | resetInput =>
    exact .inr (.inr (.inr (.inr ⟨rfl, by simpa [act] using h.symm⟩)))

end Sys2Proof.Machine
end

