-- ==== Sys2Proof/Laws/State.lean ====
section
/-! SUPPORT. One lemma per field for each named update of the state: what the update leaves in the field. -/

namespace Sys2Proof.Machine

/-! ### memWrite -/

@[simp] theorem State.memWrite_grids (s : State) (a : Nat) (v : Sample) : (s.memWrite a v).grids = s.grids := rfl
@[simp] theorem State.memWrite_gvalid (s : State) (a : Nat) (v : Sample) : (s.memWrite a v).gvalid = s.gvalid := rfl
@[simp] theorem State.memWrite_descs (s : State) (a : Nat) (v : Sample) : (s.memWrite a v).descs = s.descs := rfl
@[simp] theorem State.memWrite_dvalid (s : State) (a : Nat) (v : Sample) : (s.memWrite a v).dvalid = s.dvalid := rfl
@[simp] theorem State.memWrite_qtLuma (s : State) (a : Nat) (v : Sample) : (s.memWrite a v).qtLuma = s.qtLuma := rfl
@[simp] theorem State.memWrite_qtChroma (s : State) (a : Nat) (v : Sample) : (s.memWrite a v).qtChroma = s.qtChroma := rfl
@[simp] theorem State.memWrite_status (s : State) (a : Nat) (v : Sample) : (s.memWrite a v).status = s.status := rfl
@[simp] theorem State.memWrite_fcmd (s : State) (a : Nat) (v : Sample) : (s.memWrite a v).fcmd = s.fcmd := rfl
@[simp] theorem State.memWrite_cmdcnt (s : State) (a : Nat) (v : Sample) : (s.memWrite a v).cmdcnt = s.cmdcnt := rfl
@[simp] theorem State.memWrite_cfgstage (s : State) (a : Nat) (v : Sample) : (s.memWrite a v).cfgstage = s.cfgstage := rfl
@[simp] theorem State.memWrite_quality (s : State) (a : Nat) (v : Sample) : (s.memWrite a v).quality = s.quality := rfl
@[simp] theorem State.memWrite_cfg (s : State) (a : Nat) (v : Sample) : (s.memWrite a v).cfg = s.cfg := rfl
@[simp] theorem State.memWrite_qactive (s : State) (a : Nat) (v : Sample) : (s.memWrite a v).qactive = s.qactive := rfl
@[simp] theorem State.memWrite_scale (s : State) (a : Nat) (v : Sample) : (s.memWrite a v).scale = s.scale := rfl
@[simp] theorem State.memWrite_basestep (s : State) (a : Nat) (v : Sample) : (s.memWrite a v).basestep = s.basestep := rfl
@[simp] theorem State.memWrite_gain (s : State) (a : Nat) (v : Sample) : (s.memWrite a v).gain = s.gain := rfl
@[simp] theorem State.memWrite_levels (s : State) (a : Nat) (v : Sample) : (s.memWrite a v).levels = s.levels := rfl
@[simp] theorem State.memWrite_a0 (s : State) (a : Nat) (v : Sample) : (s.memWrite a v).a0 = s.a0 := rfl
@[simp] theorem State.memWrite_a1 (s : State) (a : Nat) (v : Sample) : (s.memWrite a v).a1 = s.a1 := rfl
@[simp] theorem State.memWrite_a2 (s : State) (a : Nat) (v : Sample) : (s.memWrite a v).a2 = s.a2 := rfl
@[simp] theorem State.memWrite_a3 (s : State) (a : Nat) (v : Sample) : (s.memWrite a v).a3 = s.a3 := rfl
@[simp] theorem State.memWrite_res0 (s : State) (a : Nat) (v : Sample) : (s.memWrite a v).res0 = s.res0 := rfl
@[simp] theorem State.memWrite_res1 (s : State) (a : Nat) (v : Sample) : (s.memWrite a v).res1 = s.res1 := rfl
@[simp] theorem State.memWrite_mem (s : State) (a : Nat) (v : Sample) : (s.memWrite a v).mem = s.mem.insert a v := rfl
@[simp] theorem State.memWrite_script (s : State) (a : Nat) (v : Sample) : (s.memWrite a v).script = s.script := rfl
@[simp] theorem State.memWrite_response (s : State) (a : Nat) (v : Sample) : (s.memWrite a v).response = s.response := rfl
@[simp] theorem State.memWrite_memTop (s : State) (a : Nat) (v : Sample) : (s.memWrite a v).memTop = s.memTop := rfl
@[simp] theorem State.memWrite_freeCount (s : State) (a : Nat) (v : Sample) : (s.memWrite a v).freeCount = s.freeCount := rfl
@[simp] theorem State.memWrite_zeroSigns (s : State) (a : Nat) (v : Sample) : (s.memWrite a v).zeroSigns = s.zeroSigns := rfl

/-! ### memWriteAll -/

@[simp] theorem State.memWriteAll_grids (s : State) (ws : List (Nat × Sample)) : (s.memWriteAll ws).grids = s.grids := rfl
@[simp] theorem State.memWriteAll_gvalid (s : State) (ws : List (Nat × Sample)) : (s.memWriteAll ws).gvalid = s.gvalid := rfl
@[simp] theorem State.memWriteAll_descs (s : State) (ws : List (Nat × Sample)) : (s.memWriteAll ws).descs = s.descs := rfl
@[simp] theorem State.memWriteAll_dvalid (s : State) (ws : List (Nat × Sample)) : (s.memWriteAll ws).dvalid = s.dvalid := rfl
@[simp] theorem State.memWriteAll_qtLuma (s : State) (ws : List (Nat × Sample)) : (s.memWriteAll ws).qtLuma = s.qtLuma := rfl
@[simp] theorem State.memWriteAll_qtChroma (s : State) (ws : List (Nat × Sample)) : (s.memWriteAll ws).qtChroma = s.qtChroma := rfl
@[simp] theorem State.memWriteAll_status (s : State) (ws : List (Nat × Sample)) : (s.memWriteAll ws).status = s.status := rfl
@[simp] theorem State.memWriteAll_fcmd (s : State) (ws : List (Nat × Sample)) : (s.memWriteAll ws).fcmd = s.fcmd := rfl
@[simp] theorem State.memWriteAll_cmdcnt (s : State) (ws : List (Nat × Sample)) : (s.memWriteAll ws).cmdcnt = s.cmdcnt := rfl
@[simp] theorem State.memWriteAll_cfgstage (s : State) (ws : List (Nat × Sample)) : (s.memWriteAll ws).cfgstage = s.cfgstage := rfl
@[simp] theorem State.memWriteAll_quality (s : State) (ws : List (Nat × Sample)) : (s.memWriteAll ws).quality = s.quality := rfl
@[simp] theorem State.memWriteAll_cfg (s : State) (ws : List (Nat × Sample)) : (s.memWriteAll ws).cfg = s.cfg := rfl
@[simp] theorem State.memWriteAll_qactive (s : State) (ws : List (Nat × Sample)) : (s.memWriteAll ws).qactive = s.qactive := rfl
@[simp] theorem State.memWriteAll_scale (s : State) (ws : List (Nat × Sample)) : (s.memWriteAll ws).scale = s.scale := rfl
@[simp] theorem State.memWriteAll_basestep (s : State) (ws : List (Nat × Sample)) : (s.memWriteAll ws).basestep = s.basestep := rfl
@[simp] theorem State.memWriteAll_gain (s : State) (ws : List (Nat × Sample)) : (s.memWriteAll ws).gain = s.gain := rfl
@[simp] theorem State.memWriteAll_levels (s : State) (ws : List (Nat × Sample)) : (s.memWriteAll ws).levels = s.levels := rfl
@[simp] theorem State.memWriteAll_a0 (s : State) (ws : List (Nat × Sample)) : (s.memWriteAll ws).a0 = s.a0 := rfl
@[simp] theorem State.memWriteAll_a1 (s : State) (ws : List (Nat × Sample)) : (s.memWriteAll ws).a1 = s.a1 := rfl
@[simp] theorem State.memWriteAll_a2 (s : State) (ws : List (Nat × Sample)) : (s.memWriteAll ws).a2 = s.a2 := rfl
@[simp] theorem State.memWriteAll_a3 (s : State) (ws : List (Nat × Sample)) : (s.memWriteAll ws).a3 = s.a3 := rfl
@[simp] theorem State.memWriteAll_res0 (s : State) (ws : List (Nat × Sample)) : (s.memWriteAll ws).res0 = s.res0 := rfl
@[simp] theorem State.memWriteAll_res1 (s : State) (ws : List (Nat × Sample)) : (s.memWriteAll ws).res1 = s.res1 := rfl
@[simp] theorem State.memWriteAll_mem (s : State) (ws : List (Nat × Sample)) : (s.memWriteAll ws).mem = s.mem.insertAll ws := rfl
@[simp] theorem State.memWriteAll_script (s : State) (ws : List (Nat × Sample)) : (s.memWriteAll ws).script = s.script := rfl
@[simp] theorem State.memWriteAll_response (s : State) (ws : List (Nat × Sample)) : (s.memWriteAll ws).response = s.response := rfl
@[simp] theorem State.memWriteAll_memTop (s : State) (ws : List (Nat × Sample)) : (s.memWriteAll ws).memTop = s.memTop := rfl
@[simp] theorem State.memWriteAll_freeCount (s : State) (ws : List (Nat × Sample)) : (s.memWriteAll ws).freeCount = s.freeCount := rfl
@[simp] theorem State.memWriteAll_zeroSigns (s : State) (ws : List (Nat × Sample)) : (s.memWriteAll ws).zeroSigns = s.zeroSigns := rfl

/-! ### setGrid -/

@[simp] theorem State.setGrid_grids (s : State) (n : RegNum) (g : Grid) : (s.setGrid n g).grids = s.grids.set n g := rfl
@[simp] theorem State.setGrid_gvalid (s : State) (n : RegNum) (g : Grid) : (s.setGrid n g).gvalid = setValid s.gvalid n := rfl
@[simp] theorem State.setGrid_descs (s : State) (n : RegNum) (g : Grid) : (s.setGrid n g).descs = s.descs := rfl
@[simp] theorem State.setGrid_dvalid (s : State) (n : RegNum) (g : Grid) : (s.setGrid n g).dvalid = s.dvalid := rfl
@[simp] theorem State.setGrid_qtLuma (s : State) (n : RegNum) (g : Grid) : (s.setGrid n g).qtLuma = s.qtLuma := rfl
@[simp] theorem State.setGrid_qtChroma (s : State) (n : RegNum) (g : Grid) : (s.setGrid n g).qtChroma = s.qtChroma := rfl
@[simp] theorem State.setGrid_status (s : State) (n : RegNum) (g : Grid) : (s.setGrid n g).status = s.status := rfl
@[simp] theorem State.setGrid_fcmd (s : State) (n : RegNum) (g : Grid) : (s.setGrid n g).fcmd = s.fcmd := rfl
@[simp] theorem State.setGrid_cmdcnt (s : State) (n : RegNum) (g : Grid) : (s.setGrid n g).cmdcnt = s.cmdcnt := rfl
@[simp] theorem State.setGrid_cfgstage (s : State) (n : RegNum) (g : Grid) : (s.setGrid n g).cfgstage = s.cfgstage := rfl
@[simp] theorem State.setGrid_quality (s : State) (n : RegNum) (g : Grid) : (s.setGrid n g).quality = s.quality := rfl
@[simp] theorem State.setGrid_cfg (s : State) (n : RegNum) (g : Grid) : (s.setGrid n g).cfg = s.cfg := rfl
@[simp] theorem State.setGrid_qactive (s : State) (n : RegNum) (g : Grid) : (s.setGrid n g).qactive = s.qactive := rfl
@[simp] theorem State.setGrid_scale (s : State) (n : RegNum) (g : Grid) : (s.setGrid n g).scale = s.scale := rfl
@[simp] theorem State.setGrid_basestep (s : State) (n : RegNum) (g : Grid) : (s.setGrid n g).basestep = s.basestep := rfl
@[simp] theorem State.setGrid_gain (s : State) (n : RegNum) (g : Grid) : (s.setGrid n g).gain = s.gain := rfl
@[simp] theorem State.setGrid_levels (s : State) (n : RegNum) (g : Grid) : (s.setGrid n g).levels = s.levels := rfl
@[simp] theorem State.setGrid_a0 (s : State) (n : RegNum) (g : Grid) : (s.setGrid n g).a0 = s.a0 := rfl
@[simp] theorem State.setGrid_a1 (s : State) (n : RegNum) (g : Grid) : (s.setGrid n g).a1 = s.a1 := rfl
@[simp] theorem State.setGrid_a2 (s : State) (n : RegNum) (g : Grid) : (s.setGrid n g).a2 = s.a2 := rfl
@[simp] theorem State.setGrid_a3 (s : State) (n : RegNum) (g : Grid) : (s.setGrid n g).a3 = s.a3 := rfl
@[simp] theorem State.setGrid_res0 (s : State) (n : RegNum) (g : Grid) : (s.setGrid n g).res0 = s.res0 := rfl
@[simp] theorem State.setGrid_res1 (s : State) (n : RegNum) (g : Grid) : (s.setGrid n g).res1 = s.res1 := rfl
@[simp] theorem State.setGrid_mem (s : State) (n : RegNum) (g : Grid) : (s.setGrid n g).mem = s.mem := rfl
@[simp] theorem State.setGrid_script (s : State) (n : RegNum) (g : Grid) : (s.setGrid n g).script = s.script := rfl
@[simp] theorem State.setGrid_response (s : State) (n : RegNum) (g : Grid) : (s.setGrid n g).response = s.response := rfl
@[simp] theorem State.setGrid_memTop (s : State) (n : RegNum) (g : Grid) : (s.setGrid n g).memTop = s.memTop := rfl
@[simp] theorem State.setGrid_freeCount (s : State) (n : RegNum) (g : Grid) : (s.setGrid n g).freeCount = s.freeCount := rfl
@[simp] theorem State.setGrid_zeroSigns (s : State) (n : RegNum) (g : Grid) : (s.setGrid n g).zeroSigns = s.zeroSigns := rfl

/-! ### setDesc -/

@[simp] theorem State.setDesc_grids (s : State) (n : RegNum) (d : Desc) : (s.setDesc n d).grids = s.grids := rfl
@[simp] theorem State.setDesc_gvalid (s : State) (n : RegNum) (d : Desc) : (s.setDesc n d).gvalid = s.gvalid := rfl
@[simp] theorem State.setDesc_descs (s : State) (n : RegNum) (d : Desc) : (s.setDesc n d).descs = s.descs.set n d := rfl
@[simp] theorem State.setDesc_dvalid (s : State) (n : RegNum) (d : Desc) : (s.setDesc n d).dvalid = setValid s.dvalid n := rfl
@[simp] theorem State.setDesc_qtLuma (s : State) (n : RegNum) (d : Desc) : (s.setDesc n d).qtLuma = s.qtLuma := rfl
@[simp] theorem State.setDesc_qtChroma (s : State) (n : RegNum) (d : Desc) : (s.setDesc n d).qtChroma = s.qtChroma := rfl
@[simp] theorem State.setDesc_status (s : State) (n : RegNum) (d : Desc) : (s.setDesc n d).status = s.status := rfl
@[simp] theorem State.setDesc_fcmd (s : State) (n : RegNum) (d : Desc) : (s.setDesc n d).fcmd = s.fcmd := rfl
@[simp] theorem State.setDesc_cmdcnt (s : State) (n : RegNum) (d : Desc) : (s.setDesc n d).cmdcnt = s.cmdcnt := rfl
@[simp] theorem State.setDesc_cfgstage (s : State) (n : RegNum) (d : Desc) : (s.setDesc n d).cfgstage = s.cfgstage := rfl
@[simp] theorem State.setDesc_quality (s : State) (n : RegNum) (d : Desc) : (s.setDesc n d).quality = s.quality := rfl
@[simp] theorem State.setDesc_cfg (s : State) (n : RegNum) (d : Desc) : (s.setDesc n d).cfg = s.cfg := rfl
@[simp] theorem State.setDesc_qactive (s : State) (n : RegNum) (d : Desc) : (s.setDesc n d).qactive = s.qactive := rfl
@[simp] theorem State.setDesc_scale (s : State) (n : RegNum) (d : Desc) : (s.setDesc n d).scale = s.scale := rfl
@[simp] theorem State.setDesc_basestep (s : State) (n : RegNum) (d : Desc) : (s.setDesc n d).basestep = s.basestep := rfl
@[simp] theorem State.setDesc_gain (s : State) (n : RegNum) (d : Desc) : (s.setDesc n d).gain = s.gain := rfl
@[simp] theorem State.setDesc_levels (s : State) (n : RegNum) (d : Desc) : (s.setDesc n d).levels = s.levels := rfl
@[simp] theorem State.setDesc_a0 (s : State) (n : RegNum) (d : Desc) : (s.setDesc n d).a0 = s.a0 := rfl
@[simp] theorem State.setDesc_a1 (s : State) (n : RegNum) (d : Desc) : (s.setDesc n d).a1 = s.a1 := rfl
@[simp] theorem State.setDesc_a2 (s : State) (n : RegNum) (d : Desc) : (s.setDesc n d).a2 = s.a2 := rfl
@[simp] theorem State.setDesc_a3 (s : State) (n : RegNum) (d : Desc) : (s.setDesc n d).a3 = s.a3 := rfl
@[simp] theorem State.setDesc_res0 (s : State) (n : RegNum) (d : Desc) : (s.setDesc n d).res0 = s.res0 := rfl
@[simp] theorem State.setDesc_res1 (s : State) (n : RegNum) (d : Desc) : (s.setDesc n d).res1 = s.res1 := rfl
@[simp] theorem State.setDesc_mem (s : State) (n : RegNum) (d : Desc) : (s.setDesc n d).mem = s.mem := rfl
@[simp] theorem State.setDesc_script (s : State) (n : RegNum) (d : Desc) : (s.setDesc n d).script = s.script := rfl
@[simp] theorem State.setDesc_response (s : State) (n : RegNum) (d : Desc) : (s.setDesc n d).response = s.response := rfl
@[simp] theorem State.setDesc_memTop (s : State) (n : RegNum) (d : Desc) : (s.setDesc n d).memTop = s.memTop := rfl
@[simp] theorem State.setDesc_freeCount (s : State) (n : RegNum) (d : Desc) : (s.setDesc n d).freeCount = s.freeCount := rfl
@[simp] theorem State.setDesc_zeroSigns (s : State) (n : RegNum) (d : Desc) : (s.setDesc n d).zeroSigns = s.zeroSigns := rfl

/-! ### setLevels -/

@[simp] theorem State.setLevels_grids (s : State) (l : Nat) : (s.setLevels l).grids = s.grids := rfl
@[simp] theorem State.setLevels_gvalid (s : State) (l : Nat) : (s.setLevels l).gvalid = s.gvalid := rfl
@[simp] theorem State.setLevels_descs (s : State) (l : Nat) : (s.setLevels l).descs = s.descs := rfl
@[simp] theorem State.setLevels_dvalid (s : State) (l : Nat) : (s.setLevels l).dvalid = s.dvalid := rfl
@[simp] theorem State.setLevels_qtLuma (s : State) (l : Nat) : (s.setLevels l).qtLuma = s.qtLuma := rfl
@[simp] theorem State.setLevels_qtChroma (s : State) (l : Nat) : (s.setLevels l).qtChroma = s.qtChroma := rfl
@[simp] theorem State.setLevels_status (s : State) (l : Nat) : (s.setLevels l).status = s.status := rfl
@[simp] theorem State.setLevels_fcmd (s : State) (l : Nat) : (s.setLevels l).fcmd = s.fcmd := rfl
@[simp] theorem State.setLevels_cmdcnt (s : State) (l : Nat) : (s.setLevels l).cmdcnt = s.cmdcnt := rfl
@[simp] theorem State.setLevels_cfgstage (s : State) (l : Nat) : (s.setLevels l).cfgstage = s.cfgstage := rfl
@[simp] theorem State.setLevels_quality (s : State) (l : Nat) : (s.setLevels l).quality = s.quality := rfl
@[simp] theorem State.setLevels_cfg (s : State) (l : Nat) : (s.setLevels l).cfg = s.cfg := rfl
@[simp] theorem State.setLevels_qactive (s : State) (l : Nat) : (s.setLevels l).qactive = s.qactive := rfl
@[simp] theorem State.setLevels_scale (s : State) (l : Nat) : (s.setLevels l).scale = s.scale := rfl
@[simp] theorem State.setLevels_basestep (s : State) (l : Nat) : (s.setLevels l).basestep = s.basestep := rfl
@[simp] theorem State.setLevels_gain (s : State) (l : Nat) : (s.setLevels l).gain = s.gain := rfl
@[simp] theorem State.setLevels_levels (s : State) (l : Nat) : (s.setLevels l).levels = BitVec.ofNat 3 l := rfl
@[simp] theorem State.setLevels_a0 (s : State) (l : Nat) : (s.setLevels l).a0 = s.a0 := rfl
@[simp] theorem State.setLevels_a1 (s : State) (l : Nat) : (s.setLevels l).a1 = s.a1 := rfl
@[simp] theorem State.setLevels_a2 (s : State) (l : Nat) : (s.setLevels l).a2 = s.a2 := rfl
@[simp] theorem State.setLevels_a3 (s : State) (l : Nat) : (s.setLevels l).a3 = s.a3 := rfl
@[simp] theorem State.setLevels_res0 (s : State) (l : Nat) : (s.setLevels l).res0 = s.res0 := rfl
@[simp] theorem State.setLevels_res1 (s : State) (l : Nat) : (s.setLevels l).res1 = s.res1 := rfl
@[simp] theorem State.setLevels_mem (s : State) (l : Nat) : (s.setLevels l).mem = s.mem := rfl
@[simp] theorem State.setLevels_script (s : State) (l : Nat) : (s.setLevels l).script = s.script := rfl
@[simp] theorem State.setLevels_response (s : State) (l : Nat) : (s.setLevels l).response = s.response := rfl
@[simp] theorem State.setLevels_memTop (s : State) (l : Nat) : (s.setLevels l).memTop = s.memTop := rfl
@[simp] theorem State.setLevels_freeCount (s : State) (l : Nat) : (s.setLevels l).freeCount = s.freeCount := rfl
@[simp] theorem State.setLevels_zeroSigns (s : State) (l : Nat) : (s.setLevels l).zeroSigns = s.zeroSigns := rfl

/-! ### setRes0 -/

@[simp] theorem State.setRes0_grids (s : State) (x : Sample) : (s.setRes0 x).grids = s.grids := rfl
@[simp] theorem State.setRes0_gvalid (s : State) (x : Sample) : (s.setRes0 x).gvalid = s.gvalid := rfl
@[simp] theorem State.setRes0_descs (s : State) (x : Sample) : (s.setRes0 x).descs = s.descs := rfl
@[simp] theorem State.setRes0_dvalid (s : State) (x : Sample) : (s.setRes0 x).dvalid = s.dvalid := rfl
@[simp] theorem State.setRes0_qtLuma (s : State) (x : Sample) : (s.setRes0 x).qtLuma = s.qtLuma := rfl
@[simp] theorem State.setRes0_qtChroma (s : State) (x : Sample) : (s.setRes0 x).qtChroma = s.qtChroma := rfl
@[simp] theorem State.setRes0_status (s : State) (x : Sample) : (s.setRes0 x).status = s.status := rfl
@[simp] theorem State.setRes0_fcmd (s : State) (x : Sample) : (s.setRes0 x).fcmd = s.fcmd := rfl
@[simp] theorem State.setRes0_cmdcnt (s : State) (x : Sample) : (s.setRes0 x).cmdcnt = s.cmdcnt := rfl
@[simp] theorem State.setRes0_cfgstage (s : State) (x : Sample) : (s.setRes0 x).cfgstage = s.cfgstage := rfl
@[simp] theorem State.setRes0_quality (s : State) (x : Sample) : (s.setRes0 x).quality = s.quality := rfl
@[simp] theorem State.setRes0_cfg (s : State) (x : Sample) : (s.setRes0 x).cfg = s.cfg := rfl
@[simp] theorem State.setRes0_qactive (s : State) (x : Sample) : (s.setRes0 x).qactive = s.qactive := rfl
@[simp] theorem State.setRes0_scale (s : State) (x : Sample) : (s.setRes0 x).scale = s.scale := rfl
@[simp] theorem State.setRes0_basestep (s : State) (x : Sample) : (s.setRes0 x).basestep = s.basestep := rfl
@[simp] theorem State.setRes0_gain (s : State) (x : Sample) : (s.setRes0 x).gain = s.gain := rfl
@[simp] theorem State.setRes0_levels (s : State) (x : Sample) : (s.setRes0 x).levels = s.levels := rfl
@[simp] theorem State.setRes0_a0 (s : State) (x : Sample) : (s.setRes0 x).a0 = s.a0 := rfl
@[simp] theorem State.setRes0_a1 (s : State) (x : Sample) : (s.setRes0 x).a1 = s.a1 := rfl
@[simp] theorem State.setRes0_a2 (s : State) (x : Sample) : (s.setRes0 x).a2 = s.a2 := rfl
@[simp] theorem State.setRes0_a3 (s : State) (x : Sample) : (s.setRes0 x).a3 = s.a3 := rfl
@[simp] theorem State.setRes0_res0 (s : State) (x : Sample) : (s.setRes0 x).res0 = x := rfl
@[simp] theorem State.setRes0_res1 (s : State) (x : Sample) : (s.setRes0 x).res1 = s.res1 := rfl
@[simp] theorem State.setRes0_mem (s : State) (x : Sample) : (s.setRes0 x).mem = s.mem := rfl
@[simp] theorem State.setRes0_script (s : State) (x : Sample) : (s.setRes0 x).script = s.script := rfl
@[simp] theorem State.setRes0_response (s : State) (x : Sample) : (s.setRes0 x).response = s.response := rfl
@[simp] theorem State.setRes0_memTop (s : State) (x : Sample) : (s.setRes0 x).memTop = s.memTop := rfl
@[simp] theorem State.setRes0_freeCount (s : State) (x : Sample) : (s.setRes0 x).freeCount = s.freeCount := rfl
@[simp] theorem State.setRes0_zeroSigns (s : State) (x : Sample) : (s.setRes0 x).zeroSigns = s.zeroSigns := rfl

/-! ### setResults -/

@[simp] theorem State.setResults_grids (s : State) (x y : Sample) : (s.setResults x y).grids = s.grids := rfl
@[simp] theorem State.setResults_gvalid (s : State) (x y : Sample) : (s.setResults x y).gvalid = s.gvalid := rfl
@[simp] theorem State.setResults_descs (s : State) (x y : Sample) : (s.setResults x y).descs = s.descs := rfl
@[simp] theorem State.setResults_dvalid (s : State) (x y : Sample) : (s.setResults x y).dvalid = s.dvalid := rfl
@[simp] theorem State.setResults_qtLuma (s : State) (x y : Sample) : (s.setResults x y).qtLuma = s.qtLuma := rfl
@[simp] theorem State.setResults_qtChroma (s : State) (x y : Sample) : (s.setResults x y).qtChroma = s.qtChroma := rfl
@[simp] theorem State.setResults_status (s : State) (x y : Sample) : (s.setResults x y).status = s.status := rfl
@[simp] theorem State.setResults_fcmd (s : State) (x y : Sample) : (s.setResults x y).fcmd = s.fcmd := rfl
@[simp] theorem State.setResults_cmdcnt (s : State) (x y : Sample) : (s.setResults x y).cmdcnt = s.cmdcnt := rfl
@[simp] theorem State.setResults_cfgstage (s : State) (x y : Sample) : (s.setResults x y).cfgstage = s.cfgstage := rfl
@[simp] theorem State.setResults_quality (s : State) (x y : Sample) : (s.setResults x y).quality = s.quality := rfl
@[simp] theorem State.setResults_cfg (s : State) (x y : Sample) : (s.setResults x y).cfg = s.cfg := rfl
@[simp] theorem State.setResults_qactive (s : State) (x y : Sample) : (s.setResults x y).qactive = s.qactive := rfl
@[simp] theorem State.setResults_scale (s : State) (x y : Sample) : (s.setResults x y).scale = s.scale := rfl
@[simp] theorem State.setResults_basestep (s : State) (x y : Sample) : (s.setResults x y).basestep = s.basestep := rfl
@[simp] theorem State.setResults_gain (s : State) (x y : Sample) : (s.setResults x y).gain = s.gain := rfl
@[simp] theorem State.setResults_levels (s : State) (x y : Sample) : (s.setResults x y).levels = s.levels := rfl
@[simp] theorem State.setResults_a0 (s : State) (x y : Sample) : (s.setResults x y).a0 = s.a0 := rfl
@[simp] theorem State.setResults_a1 (s : State) (x y : Sample) : (s.setResults x y).a1 = s.a1 := rfl
@[simp] theorem State.setResults_a2 (s : State) (x y : Sample) : (s.setResults x y).a2 = s.a2 := rfl
@[simp] theorem State.setResults_a3 (s : State) (x y : Sample) : (s.setResults x y).a3 = s.a3 := rfl
@[simp] theorem State.setResults_res0 (s : State) (x y : Sample) : (s.setResults x y).res0 = x := rfl
@[simp] theorem State.setResults_res1 (s : State) (x y : Sample) : (s.setResults x y).res1 = y := rfl
@[simp] theorem State.setResults_mem (s : State) (x y : Sample) : (s.setResults x y).mem = s.mem := rfl
@[simp] theorem State.setResults_script (s : State) (x y : Sample) : (s.setResults x y).script = s.script := rfl
@[simp] theorem State.setResults_response (s : State) (x y : Sample) : (s.setResults x y).response = s.response := rfl
@[simp] theorem State.setResults_memTop (s : State) (x y : Sample) : (s.setResults x y).memTop = s.memTop := rfl
@[simp] theorem State.setResults_freeCount (s : State) (x y : Sample) : (s.setResults x y).freeCount = s.freeCount := rfl
@[simp] theorem State.setResults_zeroSigns (s : State) (x y : Sample) : (s.setResults x y).zeroSigns = s.zeroSigns := rfl

/-! ### setMismatch -/

@[simp] theorem State.setMismatch_grids (s : State) (b : Bool) : (s.setMismatch b).grids = s.grids := rfl
@[simp] theorem State.setMismatch_gvalid (s : State) (b : Bool) : (s.setMismatch b).gvalid = s.gvalid := rfl
@[simp] theorem State.setMismatch_descs (s : State) (b : Bool) : (s.setMismatch b).descs = s.descs := rfl
@[simp] theorem State.setMismatch_dvalid (s : State) (b : Bool) : (s.setMismatch b).dvalid = s.dvalid := rfl
@[simp] theorem State.setMismatch_qtLuma (s : State) (b : Bool) : (s.setMismatch b).qtLuma = s.qtLuma := rfl
@[simp] theorem State.setMismatch_qtChroma (s : State) (b : Bool) : (s.setMismatch b).qtChroma = s.qtChroma := rfl
@[simp] theorem State.setMismatch_status (s : State) (b : Bool) : (s.setMismatch b).status = { s.status with mismatch := b } := rfl
@[simp] theorem State.setMismatch_fcmd (s : State) (b : Bool) : (s.setMismatch b).fcmd = s.fcmd := rfl
@[simp] theorem State.setMismatch_cmdcnt (s : State) (b : Bool) : (s.setMismatch b).cmdcnt = s.cmdcnt := rfl
@[simp] theorem State.setMismatch_cfgstage (s : State) (b : Bool) : (s.setMismatch b).cfgstage = s.cfgstage := rfl
@[simp] theorem State.setMismatch_quality (s : State) (b : Bool) : (s.setMismatch b).quality = s.quality := rfl
@[simp] theorem State.setMismatch_cfg (s : State) (b : Bool) : (s.setMismatch b).cfg = s.cfg := rfl
@[simp] theorem State.setMismatch_qactive (s : State) (b : Bool) : (s.setMismatch b).qactive = s.qactive := rfl
@[simp] theorem State.setMismatch_scale (s : State) (b : Bool) : (s.setMismatch b).scale = s.scale := rfl
@[simp] theorem State.setMismatch_basestep (s : State) (b : Bool) : (s.setMismatch b).basestep = s.basestep := rfl
@[simp] theorem State.setMismatch_gain (s : State) (b : Bool) : (s.setMismatch b).gain = s.gain := rfl
@[simp] theorem State.setMismatch_levels (s : State) (b : Bool) : (s.setMismatch b).levels = s.levels := rfl
@[simp] theorem State.setMismatch_a0 (s : State) (b : Bool) : (s.setMismatch b).a0 = s.a0 := rfl
@[simp] theorem State.setMismatch_a1 (s : State) (b : Bool) : (s.setMismatch b).a1 = s.a1 := rfl
@[simp] theorem State.setMismatch_a2 (s : State) (b : Bool) : (s.setMismatch b).a2 = s.a2 := rfl
@[simp] theorem State.setMismatch_a3 (s : State) (b : Bool) : (s.setMismatch b).a3 = s.a3 := rfl
@[simp] theorem State.setMismatch_res0 (s : State) (b : Bool) : (s.setMismatch b).res0 = s.res0 := rfl
@[simp] theorem State.setMismatch_res1 (s : State) (b : Bool) : (s.setMismatch b).res1 = s.res1 := rfl
@[simp] theorem State.setMismatch_mem (s : State) (b : Bool) : (s.setMismatch b).mem = s.mem := rfl
@[simp] theorem State.setMismatch_script (s : State) (b : Bool) : (s.setMismatch b).script = s.script := rfl
@[simp] theorem State.setMismatch_response (s : State) (b : Bool) : (s.setMismatch b).response = s.response := rfl
@[simp] theorem State.setMismatch_memTop (s : State) (b : Bool) : (s.setMismatch b).memTop = s.memTop := rfl
@[simp] theorem State.setMismatch_freeCount (s : State) (b : Bool) : (s.setMismatch b).freeCount = s.freeCount := rfl
@[simp] theorem State.setMismatch_zeroSigns (s : State) (b : Bool) : (s.setMismatch b).zeroSigns = s.zeroSigns := rfl

/-! ### raise -/

@[simp] theorem State.raise_grids (s : State) (w : Word) (f : FaultCode) : (s.raise w f).grids = s.grids := rfl
@[simp] theorem State.raise_gvalid (s : State) (w : Word) (f : FaultCode) : (s.raise w f).gvalid = s.gvalid := rfl
@[simp] theorem State.raise_descs (s : State) (w : Word) (f : FaultCode) : (s.raise w f).descs = s.descs := rfl
@[simp] theorem State.raise_dvalid (s : State) (w : Word) (f : FaultCode) : (s.raise w f).dvalid = s.dvalid := rfl
@[simp] theorem State.raise_qtLuma (s : State) (w : Word) (f : FaultCode) : (s.raise w f).qtLuma = s.qtLuma := rfl
@[simp] theorem State.raise_qtChroma (s : State) (w : Word) (f : FaultCode) : (s.raise w f).qtChroma = s.qtChroma := rfl
@[simp] theorem State.raise_status (s : State) (w : Word) (f : FaultCode) : (s.raise w f).status = { s.status with fault := true, fcode := f.code, busy := false } := rfl
@[simp] theorem State.raise_fcmd (s : State) (w : Word) (f : FaultCode) : (s.raise w f).fcmd = w := rfl
@[simp] theorem State.raise_cmdcnt (s : State) (w : Word) (f : FaultCode) : (s.raise w f).cmdcnt = s.cmdcnt := rfl
@[simp] theorem State.raise_cfgstage (s : State) (w : Word) (f : FaultCode) : (s.raise w f).cfgstage = s.cfgstage := rfl
@[simp] theorem State.raise_quality (s : State) (w : Word) (f : FaultCode) : (s.raise w f).quality = s.quality := rfl
@[simp] theorem State.raise_cfg (s : State) (w : Word) (f : FaultCode) : (s.raise w f).cfg = s.cfg := rfl
@[simp] theorem State.raise_qactive (s : State) (w : Word) (f : FaultCode) : (s.raise w f).qactive = s.qactive := rfl
@[simp] theorem State.raise_scale (s : State) (w : Word) (f : FaultCode) : (s.raise w f).scale = s.scale := rfl
@[simp] theorem State.raise_basestep (s : State) (w : Word) (f : FaultCode) : (s.raise w f).basestep = s.basestep := rfl
@[simp] theorem State.raise_gain (s : State) (w : Word) (f : FaultCode) : (s.raise w f).gain = s.gain := rfl
@[simp] theorem State.raise_levels (s : State) (w : Word) (f : FaultCode) : (s.raise w f).levels = s.levels := rfl
@[simp] theorem State.raise_a0 (s : State) (w : Word) (f : FaultCode) : (s.raise w f).a0 = s.a0 := rfl
@[simp] theorem State.raise_a1 (s : State) (w : Word) (f : FaultCode) : (s.raise w f).a1 = s.a1 := rfl
@[simp] theorem State.raise_a2 (s : State) (w : Word) (f : FaultCode) : (s.raise w f).a2 = s.a2 := rfl
@[simp] theorem State.raise_a3 (s : State) (w : Word) (f : FaultCode) : (s.raise w f).a3 = s.a3 := rfl
@[simp] theorem State.raise_res0 (s : State) (w : Word) (f : FaultCode) : (s.raise w f).res0 = s.res0 := rfl
@[simp] theorem State.raise_res1 (s : State) (w : Word) (f : FaultCode) : (s.raise w f).res1 = s.res1 := rfl
@[simp] theorem State.raise_mem (s : State) (w : Word) (f : FaultCode) : (s.raise w f).mem = s.mem := rfl
@[simp] theorem State.raise_script (s : State) (w : Word) (f : FaultCode) : (s.raise w f).script = s.script := rfl
@[simp] theorem State.raise_response (s : State) (w : Word) (f : FaultCode) : (s.raise w f).response = s.response := rfl
@[simp] theorem State.raise_memTop (s : State) (w : Word) (f : FaultCode) : (s.raise w f).memTop = s.memTop := rfl
@[simp] theorem State.raise_freeCount (s : State) (w : Word) (f : FaultCode) : (s.raise w f).freeCount = s.freeCount := rfl
@[simp] theorem State.raise_zeroSigns (s : State) (w : Word) (f : FaultCode) : (s.raise w f).zeroSigns = s.zeroSigns := rfl

/-! ### begin -/

@[simp] theorem State.begin_grids (s : State) : (s.begin).grids = s.grids := rfl
@[simp] theorem State.begin_gvalid (s : State) : (s.begin).gvalid = s.gvalid := rfl
@[simp] theorem State.begin_descs (s : State) : (s.begin).descs = s.descs := rfl
@[simp] theorem State.begin_dvalid (s : State) : (s.begin).dvalid = s.dvalid := rfl
@[simp] theorem State.begin_qtLuma (s : State) : (s.begin).qtLuma = s.qtLuma := rfl
@[simp] theorem State.begin_qtChroma (s : State) : (s.begin).qtChroma = s.qtChroma := rfl
@[simp] theorem State.begin_status (s : State) : (s.begin).status = { s.status with busy := true } := rfl
@[simp] theorem State.begin_fcmd (s : State) : (s.begin).fcmd = s.fcmd := rfl
@[simp] theorem State.begin_cmdcnt (s : State) : (s.begin).cmdcnt = s.cmdcnt := rfl
@[simp] theorem State.begin_cfgstage (s : State) : (s.begin).cfgstage = s.cfgstage := rfl
@[simp] theorem State.begin_quality (s : State) : (s.begin).quality = s.quality := rfl
@[simp] theorem State.begin_cfg (s : State) : (s.begin).cfg = s.cfg := rfl
@[simp] theorem State.begin_qactive (s : State) : (s.begin).qactive = s.qactive := rfl
@[simp] theorem State.begin_scale (s : State) : (s.begin).scale = s.scale := rfl
@[simp] theorem State.begin_basestep (s : State) : (s.begin).basestep = s.basestep := rfl
@[simp] theorem State.begin_gain (s : State) : (s.begin).gain = s.gain := rfl
@[simp] theorem State.begin_levels (s : State) : (s.begin).levels = s.levels := rfl
@[simp] theorem State.begin_a0 (s : State) : (s.begin).a0 = s.a0 := rfl
@[simp] theorem State.begin_a1 (s : State) : (s.begin).a1 = s.a1 := rfl
@[simp] theorem State.begin_a2 (s : State) : (s.begin).a2 = s.a2 := rfl
@[simp] theorem State.begin_a3 (s : State) : (s.begin).a3 = s.a3 := rfl
@[simp] theorem State.begin_res0 (s : State) : (s.begin).res0 = s.res0 := rfl
@[simp] theorem State.begin_res1 (s : State) : (s.begin).res1 = s.res1 := rfl
@[simp] theorem State.begin_mem (s : State) : (s.begin).mem = s.mem := rfl
@[simp] theorem State.begin_script (s : State) : (s.begin).script = s.script := rfl
@[simp] theorem State.begin_response (s : State) : (s.begin).response = s.response := rfl
@[simp] theorem State.begin_memTop (s : State) : (s.begin).memTop = s.memTop := rfl
@[simp] theorem State.begin_freeCount (s : State) : (s.begin).freeCount = s.freeCount := rfl
@[simp] theorem State.begin_zeroSigns (s : State) : (s.begin).zeroSigns = s.zeroSigns := rfl

/-! ### complete -/

@[simp] theorem State.complete_grids (s : State) : (s.complete).grids = s.grids := rfl
@[simp] theorem State.complete_gvalid (s : State) : (s.complete).gvalid = s.gvalid := rfl
@[simp] theorem State.complete_descs (s : State) : (s.complete).descs = s.descs := rfl
@[simp] theorem State.complete_dvalid (s : State) : (s.complete).dvalid = s.dvalid := rfl
@[simp] theorem State.complete_qtLuma (s : State) : (s.complete).qtLuma = s.qtLuma := rfl
@[simp] theorem State.complete_qtChroma (s : State) : (s.complete).qtChroma = s.qtChroma := rfl
@[simp] theorem State.complete_status (s : State) : (s.complete).status = { s.status with busy := false } := rfl
@[simp] theorem State.complete_fcmd (s : State) : (s.complete).fcmd = s.fcmd := rfl
@[simp] theorem State.complete_cmdcnt (s : State) : (s.complete).cmdcnt = s.cmdcnt + 1 := rfl
@[simp] theorem State.complete_cfgstage (s : State) : (s.complete).cfgstage = s.cfgstage := rfl
@[simp] theorem State.complete_quality (s : State) : (s.complete).quality = s.quality := rfl
@[simp] theorem State.complete_cfg (s : State) : (s.complete).cfg = s.cfg := rfl
@[simp] theorem State.complete_qactive (s : State) : (s.complete).qactive = s.qactive := rfl
@[simp] theorem State.complete_scale (s : State) : (s.complete).scale = s.scale := rfl
@[simp] theorem State.complete_basestep (s : State) : (s.complete).basestep = s.basestep := rfl
@[simp] theorem State.complete_gain (s : State) : (s.complete).gain = s.gain := rfl
@[simp] theorem State.complete_levels (s : State) : (s.complete).levels = s.levels := rfl
@[simp] theorem State.complete_a0 (s : State) : (s.complete).a0 = s.a0 := rfl
@[simp] theorem State.complete_a1 (s : State) : (s.complete).a1 = s.a1 := rfl
@[simp] theorem State.complete_a2 (s : State) : (s.complete).a2 = s.a2 := rfl
@[simp] theorem State.complete_a3 (s : State) : (s.complete).a3 = s.a3 := rfl
@[simp] theorem State.complete_res0 (s : State) : (s.complete).res0 = s.res0 := rfl
@[simp] theorem State.complete_res1 (s : State) : (s.complete).res1 = s.res1 := rfl
@[simp] theorem State.complete_mem (s : State) : (s.complete).mem = s.mem := rfl
@[simp] theorem State.complete_script (s : State) : (s.complete).script = s.script := rfl
@[simp] theorem State.complete_response (s : State) : (s.complete).response = s.response := rfl
@[simp] theorem State.complete_memTop (s : State) : (s.complete).memTop = s.memTop := rfl
@[simp] theorem State.complete_freeCount (s : State) : (s.complete).freeCount = s.freeCount + 1 := rfl
@[simp] theorem State.complete_zeroSigns (s : State) : (s.complete).zeroSigns = s.zeroSigns := rfl

/-! ### respond -/

@[simp] theorem State.respond_grids (s : State) (r : Response) : (s.respond r).grids = s.grids := rfl
@[simp] theorem State.respond_gvalid (s : State) (r : Response) : (s.respond r).gvalid = s.gvalid := rfl
@[simp] theorem State.respond_descs (s : State) (r : Response) : (s.respond r).descs = s.descs := rfl
@[simp] theorem State.respond_dvalid (s : State) (r : Response) : (s.respond r).dvalid = s.dvalid := rfl
@[simp] theorem State.respond_qtLuma (s : State) (r : Response) : (s.respond r).qtLuma = s.qtLuma := rfl
@[simp] theorem State.respond_qtChroma (s : State) (r : Response) : (s.respond r).qtChroma = s.qtChroma := rfl
@[simp] theorem State.respond_status (s : State) (r : Response) : (s.respond r).status = s.status := rfl
@[simp] theorem State.respond_fcmd (s : State) (r : Response) : (s.respond r).fcmd = s.fcmd := rfl
@[simp] theorem State.respond_cmdcnt (s : State) (r : Response) : (s.respond r).cmdcnt = s.cmdcnt := rfl
@[simp] theorem State.respond_cfgstage (s : State) (r : Response) : (s.respond r).cfgstage = s.cfgstage := rfl
@[simp] theorem State.respond_quality (s : State) (r : Response) : (s.respond r).quality = s.quality := rfl
@[simp] theorem State.respond_cfg (s : State) (r : Response) : (s.respond r).cfg = s.cfg := rfl
@[simp] theorem State.respond_qactive (s : State) (r : Response) : (s.respond r).qactive = s.qactive := rfl
@[simp] theorem State.respond_scale (s : State) (r : Response) : (s.respond r).scale = s.scale := rfl
@[simp] theorem State.respond_basestep (s : State) (r : Response) : (s.respond r).basestep = s.basestep := rfl
@[simp] theorem State.respond_gain (s : State) (r : Response) : (s.respond r).gain = s.gain := rfl
@[simp] theorem State.respond_levels (s : State) (r : Response) : (s.respond r).levels = s.levels := rfl
@[simp] theorem State.respond_a0 (s : State) (r : Response) : (s.respond r).a0 = s.a0 := rfl
@[simp] theorem State.respond_a1 (s : State) (r : Response) : (s.respond r).a1 = s.a1 := rfl
@[simp] theorem State.respond_a2 (s : State) (r : Response) : (s.respond r).a2 = s.a2 := rfl
@[simp] theorem State.respond_a3 (s : State) (r : Response) : (s.respond r).a3 = s.a3 := rfl
@[simp] theorem State.respond_res0 (s : State) (r : Response) : (s.respond r).res0 = s.res0 := rfl
@[simp] theorem State.respond_res1 (s : State) (r : Response) : (s.respond r).res1 = s.res1 := rfl
@[simp] theorem State.respond_mem (s : State) (r : Response) : (s.respond r).mem = s.mem := rfl
@[simp] theorem State.respond_script (s : State) (r : Response) : (s.respond r).script = s.script := rfl
@[simp] theorem State.respond_response (s : State) (r : Response) : (s.respond r).response = r := rfl
@[simp] theorem State.respond_memTop (s : State) (r : Response) : (s.respond r).memTop = s.memTop := rfl
@[simp] theorem State.respond_freeCount (s : State) (r : Response) : (s.respond r).freeCount = s.freeCount := rfl
@[simp] theorem State.respond_zeroSigns (s : State) (r : Response) : (s.respond r).zeroSigns = s.zeroSigns := rfl

/-! ### Register files -/

@[simp] theorem State.grid_setGrid_same (s : State) (n : RegNum) (g : Grid) : (s.setGrid n g).grid n = g := by
  simp [State.grid, State.setGrid]

theorem State.grid_setGrid_other (s : State) {m n : RegNum} (g : Grid) (h : m ≠ n) :
    (s.setGrid n g).grid m = s.grid m := by
  have : n.val ≠ m.val := fun e => h (Fin.ext e.symm)
  simp [State.grid, State.setGrid, this]

@[simp] theorem State.desc_setDesc_same (s : State) (n : RegNum) (d : Desc) : (s.setDesc n d).desc n = d := by
  simp [State.desc, State.setDesc]

theorem State.desc_setDesc_other (s : State) {m n : RegNum} (d : Desc) (h : m ≠ n) :
    (s.setDesc n d).desc m = s.desc m := by
  have : n.val ≠ m.val := fun e => h (Fin.ext e.symm)
  simp [State.desc, State.setDesc, this]

/-- A valid bit after another one is set. -/
theorem getLsbD_setValid (v : BitVec 8) (n m : RegNum) :
    (setValid v n).getLsbD m.val = (v.getLsbD m.val || decide (m = n)) := by
  have h : ∀ n m : RegNum, (1#8 <<< n.val).getLsbD m.val = decide (m = n) := by decide
  rw [setValid, BitVec.getLsbD_or, h]

@[simp] theorem State.gridValid_setGrid (s : State) (n m : RegNum) (g : Grid) :
    (s.setGrid n g).gridValid m = (s.gridValid m || decide (m = n)) := getLsbD_setValid s.gvalid n m

@[simp] theorem State.descValid_setDesc (s : State) (n m : RegNum) (d : Desc) :
    (s.setDesc n d).descValid m = (s.descValid m || decide (m = n)) := getLsbD_setValid s.dvalid n m

end Sys2Proof.Machine
end

