-- ==== Sys2Proof/Machine/Listing.lean ====
section
/-! DEFINITION. Listings: the pseudo-instructions (spec/30_encoding.md R101) and the spec's two reference host sequences
(spec/46_pipeline.md R250, spec/47_fidelity.md R275), as lists of host actions for `State.script`. -/

namespace Sys2Proof.Machine

/-- A listing: host actions in order (R100). -/
abbrev Listing := List HostAction

/-- `<MNEMONIC> <operands>`: the write of the command's word to `CMD` (R100). -/
def listCommand (i : Instr) : HostAction := .regWrite cmdIndex ((encode i).setWidth 64)

/-- `WR A0, v` to `WR A3, v`: argument register k is at index 0x10 + k (R43). -/
def listArgument (k : Fin 4) (v : BitVec 32) : HostAction := .regWrite (BitVec.ofNat 8 (0x10 + k.val)) (v.setWidth 64)

/-! ## Pseudo-instructions (R101) -/

/-- `DESC dn, base, w, h, c`. -/
def listDesc (dn : RegNum) (base w h c : BitVec 32) : Listing :=
  [listArgument 0 base, listArgument 1 w, listArgument 2 h, listArgument 3 c, listCommand (.dset dn)]

/-- `SETCFG q, qen, chroma, xform`. -/
def listSetCfg (q : Sample) (qen : Bool) (chroma : BitVec 2) (xform : Bool) : Listing :=
  [.regWrite 0x09#8 q, .regWrite 0x08#8 ((BitVec.ofBool xform ++ chroma ++ BitVec.ofBool qen).setWidth 64),
    listCommand .config]

/-- The writes of a block's column, row and channel to `A0`, `A1`, `A2`. -/
def listBlockAt (bx bY ch : BitVec 32) : Listing := [listArgument 0 bx, listArgument 1 bY, listArgument 2 ch]

/-- `LDBLK gd, ds, bx, by, ch`. -/
def listLdBlk (gd ds : RegNum) (bx bY ch : BitVec 32) : Listing := listBlockAt bx bY ch ++ [listCommand (.gld gd ds)]

/-- `STBLK dd, gs, bx, by, ch`. -/
def listStBlk (dd gs : RegNum) (bx bY ch : BitVec 32) : Listing := listBlockAt bx bY ch ++ [listCommand (.gst dd gs)]

/-- `EXTRACT dd, ds, ch`. -/
def listExtract (dd ds : RegNum) (ch : BitVec 32) : Listing := [listArgument 2 ch, listCommand (.split dd ds)]

/-- `INSERT dd, ds, ch`. -/
def listInsert (dd ds : RegNum) (ch : BitVec 32) : Listing := [listArgument 2 ch, listCommand (.merge dd ds)]

/-- `INSPECTBLK ds, bx, by, ch, t`. -/
def listInspectBlk (ds : RegNum) (bx bY ch : BitVec 32) (t : TableSel) : Listing :=
  listBlockAt bx bY ch ++ [listCommand (.inspect ds t)]

/-- `RESET`. -/
def listReset : Listing := [.regWrite 0x05#8 1#64]

/-! ## The reference sequences -/

/-- One chroma plane of `process`: at full resolution in mode 0, else downsampled, processed and upsampled back (R250). -/
def listProcessChroma (mode : BitVec 2) (ch : BitVec 32) : Listing :=
  listExtract 2 1 ch
    ++ (if mode = 0#2 then [listCommand (.procPln 3 2 .chroma)]
      else [listCommand (.cdown 4 2 mode), listCommand (.procPln 5 4 .chroma), listCommand (.cup 3 5 mode)])
    ++ listInsert 6 3 ch

/-- `process(image)` (R250): d0 to d7, by way of d1 to d6; `mode` is the host's copy of `CFG.CHROMA`. -/
def listProcess (mode : BitVec 2) : Listing :=
  [listCommand (.cscF 1 0)] ++ listExtract 2 1 0 ++ [listCommand (.procPln 3 2 .luma)] ++ listInsert 6 3 0
    ++ listProcessChroma mode 1 ++ listProcessChroma mode 2 ++ [listCommand (.cscI 7 6)]

/-- The metrics of one plane in `computeMetrics`: PSNR and SSIM, each read from `RES0` (R275). -/
def listPlaneMetrics (ch : BitVec 32) : Listing :=
  listExtract 4 2 ch ++ listExtract 5 3 ch
    ++ [listCommand (.psnr 4 5), .regRead 0x18#8, listCommand (.ssim 4 5), .regRead 0x18#8]

/-- `computeMetrics(original, reconstructed)` (R275): d0 against d1, the artifact map in d6. -/
def listComputeMetrics : Listing :=
  [listCommand (.cscF 2 0), listCommand (.cscF 3 1)] ++ listPlaneMetrics 0 ++ listPlaneMetrics 1 ++ listPlaneMetrics 2
    ++ [listCommand (.artmap 6 0 1)]

end Sys2Proof.Machine
end

