-- ==== Sys2Proof/Tests/Slice0.lean ====
section
/-! SUPPORT. The model's own tests: the well-formedness smoke test, every command's decoding from a word written out by the
format of R90, one-step tests whose expected values are the spec's examples (95_test_vectors.md, or the rule named), and a
witness that meets the hypotheses of each statement, clause by clause at boundary values. -/

namespace Sys2Proof.Tests

open Sys2Proof Sys2Proof.Machine

set_option Elab.async false

/-! ## Small states -/

/-- The sample of an integer. -/
def num (n : Int) : Sample := Binary64.ofInt n

/-- The state a command leaves. -/
def after (r : Result) : State :=
  match r with
  | .next t => t
  | .fault _ => State.reset
  | .refused _ => State.reset

/-- The command faulted with code f. -/
def faulted (r : Result) (f : Nat) : Bool := (after r).status.fault && (after r).status.fcode.toNat == f

/-- The state with integers stored from an address on. -/
def store (base : Nat) (vs : List Int) (s : State) : State :=
  s.memWriteAll ((List.range vs.length).map fun k => (base + k, num (vs.getD k 0)))

/-- The state with descriptor n set. -/
def image (n : RegNum) (base w h c : Nat) (s : State) : State :=
  s.setDesc n { base := BitVec.ofNat 32 base, w := BitVec.ofNat 16 w, h := BitVec.ofNat 16 h, c := BitVec.ofNat 8 c }

/-- The state with the argument registers set. -/
def args (a0 a1 a2 a3 : Nat) (s : State) : State :=
  { s with a0 := BitVec.ofNat 32 a0, a1 := BitVec.ofNat 32 a1, a2 := BitVec.ofNat 32 a2, a3 := BitVec.ofNat 32 a3 }

/-- The constant grid. -/
def constant (n : Int) : Grid := Vector.replicate 64 (num n)

/-- The state after a `CONFIG` at quality 50. -/
def config50 (stage : BitVec 4) : State :=
  { State.reset with
    cfg := stage
    qactive := num 50
    scale := num 1
    basestep := num 32
    qtLuma := constant 16
    qtChroma := constant 17
    status := { State.reset.status with cfgv := true } }

/-- Two planes of one shape, the first with samples stored, side by side. -/
def twoPlanes (w h : Nat) (vs : List Int) (s : State) : State :=
  store 0 vs (image 1 (w * h) w h 1 (image 0 0 w h 1 s))

/-- Two images of one shape with the same samples. -/
def samePair (w h c : Nat) (vs : List Int) : State :=
  store (w * h * c) vs (store 0 vs (image 1 (w * h * c) w h c (image 0 0 w h c State.reset)))

/-- The state whose host's next action is a. -/
def doing (a : HostAction) (s : State) : State := { s with script := [a] }

/-! ## Well-formedness (R92 step 3) -/

theorem test_wellFormed_refuses_reserved_mode_down : (Instr.cdown 1 0 3#2).wellFormed = false := by decide

theorem test_wellFormed_refuses_reserved_mode_up : (Instr.cup 1 0 3#2).wellFormed = false := by decide

theorem test_wellFormed_accepts_420 : (Instr.cdown 1 0 2#2).wellFormed = true := by decide

/-! ## Decoding: words assembled by hand from R90 and R94 -/

theorem test_decode_system :
    decode 0b00000000_000_000_000_00_0000000000000#32 = .ok .nop
    ∧ decode 0b00000001_000_000_000_00_0000000000000#32 = .ok .config
    ∧ decode 0b00000010_110_000_000_00_0000000000000#32 = .ok (.dset 6) := by decide

theorem test_decode_grid_movement :
    decode 0b00010000_011_101_000_00_0000000000000#32 = .ok (.gld 3 5)
    ∧ decode 0b00010001_001_010_000_00_0000000000000#32 = .ok (.gst 1 2)
    ∧ decode 0b00010010_010_001_000_00_0000000000000#32 = .ok (.gmov 2 1)
    ∧ decode 0b00010011_101_000_000_00_0000000000000#32 = .ok (.gzero 5)
    ∧ decode 0b00010100_111_000_000_01_0000000000000#32 = .ok (.gqt 7 .chroma)
    ∧ decode 0b00010100_111_000_000_00_0000000000000#32 = .ok (.gqt 7 .luma) := by decide

theorem test_decode_image_movement :
    decode 0b00011000_001_000_000_00_0000000000000#32 = .ok (.split 1 0)
    ∧ decode 0b00011001_110_011_000_00_0000000000000#32 = .ok (.merge 6 3)
    ∧ decode 0b00011010_001_000_000_00_0000000000000#32 = .ok (.copy 1 0) := by decide

theorem test_decode_color_and_dct :
    decode 0b00100000_001_000_000_00_0000000000000#32 = .ok (.cscF 1 0)
    ∧ decode 0b00100001_111_110_000_00_0000000000000#32 = .ok (.cscI 7 6)
    ∧ decode 0b00110000_001_000_000_00_0000000000000#32 = .ok (.dctF 1 0)
    ∧ decode 0b00110001_010_001_000_00_0000000000000#32 = .ok (.dctI 2 1) := by decide

theorem test_decode_haar :
    decode 0b01000000_001_000_000_00_0000000000000#32 = .ok (.haar8F 1 0)
    ∧ decode 0b01000001_010_001_000_00_0000000000000#32 = .ok (.haar8I 2 1)
    ∧ decode 0b01000100_100_000_000_00_0000000000000#32 = .ok (.dwtLev 4)
    ∧ decode 0b01000101_001_000_000_00_0000000000000#32 = .ok (.dwtF 1 0)
    ∧ decode 0b01000110_010_001_000_00_0000000000000#32 = .ok (.dwtI 2 1) := by decide

theorem test_decode_quantizer :
    decode 0b01010000_010_001_000_01_0000000000000#32 = .ok (.qBlk 2 1 .chroma)
    ∧ decode 0b01010001_011_010_000_00_0000000000000#32 = .ok (.dqBlk 3 2 .luma)
    ∧ decode 0b01010010_010_001_000_00_0000000000000#32 = .ok (.qwBlk 2 1)
    ∧ decode 0b01010011_011_010_000_00_0000000000000#32 = .ok (.dqwBlk 3 2)
    ∧ decode 0b01010100_010_001_000_00_0000000000000#32 = .ok (.qwPln 2 1)
    ∧ decode 0b01010101_011_010_000_00_0000000000000#32 = .ok (.dqwPln 3 2)
    ∧ decode 0b01011000_010_000_000_00_0000000000000#32 = .ok (.bitsBlk 2)
    ∧ decode 0b01011001_010_000_000_00_0000000000000#32 = .ok (.bitsPln 2) := by decide

theorem test_decode_chroma_pipeline_fidelity :
    decode 0b01100000_001_000_000_10_0000000000000#32 = .ok (.cdown 1 0 2)
    ∧ decode 0b01100001_010_001_000_01_0000000000000#32 = .ok (.cup 2 1 1)
    ∧ decode 0b01110000_001_000_000_01_0000000000000#32 = .ok (.procPln 1 0 .chroma)
    ∧ decode 0b01110001_000_000_000_01_0000000000000#32 = .ok (.inspect 0 .chroma)
    ∧ decode 0b10000000_000_001_000_00_0000000000000#32 = .ok (.psnr 0 1)
    ∧ decode 0b10000001_000_001_000_00_0000000000000#32 = .ok (.ssim 0 1)
    ∧ decode 0b10000010_010_000_001_00_0000000000000#32 = .ok (.artmap 2 0 1) := by decide

/-- R92: an unassigned opcode, each kind of must-be-zero bit, the reserved mode. -/
theorem test_decode_rejects :
    decode 0x03000000#32 = .error .unassignedOpcode ∧ decode 0xFF000000#32 = .error .unassignedOpcode
    ∧ decode 0x00000001#32 = .error .mustBeZero ∧ decode 0x30208000#32 = .error .mustBeZero
    ∧ decode 0x50444000#32 = .error .mustBeZero ∧ decode 0x60206000#32 = .error .reservedMode := by decide

theorem test_decodeTableWord_reads_row : decodeTableWord 32 0x71002000 = some (.inspect 0 .chroma) := by decide

/-! ## The frame -/

/-- R120, R126: a word placed for the next step runs as the first command after reset. -/
theorem test_step_runs_placed_word :
    (after (step (State.reset.withFetchWord 32 0x13A00000))).gvalid = 0x20#8
    ∧ (after (step (State.reset.withFetchWord 32 0x13A00000))).cmdcnt = 1#32 := by decide +kernel

/-- R305, R306: an illegal word halts the block, and a command after it is ignored. -/
theorem test_halted_block_ignores_nop :
    let s := { State.reset with script := [.regWrite 0x04#8 0x03000000#64, .regWrite 0x04#8 0#64] }
    let t := after (step (after (step s)))
    t.status.fcode = 1#4 ∧ t.fcmd = 0x03000000#32 ∧ t.cmdcnt = 0#32 ∧ t.response = .done := by decide +kernel

/-- R30, R31, R25: `ID`, `STATUS` after a fault, and the error response of a read of `CMD`. -/
theorem test_register_reads :
    State.reset.regRead 0x00#8 = some 0x43445031#64
    ∧ (State.reset.raise 0#32 .bounds).regRead 0x01#8 = some 0x52#64
    ∧ State.reset.regRead 0x04#8 = none := by decide +kernel

/-! ## Commands, one step each -/

/-- R122: 0, 8, 8, 1 gives the descriptor; with 4096 samples a base of 4033 is out of bounds, and a width of 65536 is
reported first. -/
theorem test_dset :
    (after (exec (.dset 0) (args 0 8 8 1 State.reset))).desc 0 = { base := 0, w := 8, h := 8, c := 1 }
    ∧ faulted (exec (.dset 1) (args 4033 8 8 1 { State.reset with memTop := 4095 })) 5 = true
    ∧ faulted (exec (.dset 0) (args 0 65536 1 1 { State.reset with memTop := 0 })) 4 = true
    ∧ faulted (exec (.dset 1) (args 4032 8 8 1 { State.reset with memTop := 4095 })) 5 = false := by decide +kernel

/-- R203: quality 50 has scale 1, base step 32 and the base tables; quality 0 is rejected. -/
theorem test_config :
    let t := after (exec .config { State.reset with quality := num 50, cfgstage := 1#4 })
    t.scale = num 1 ∧ t.basestep = num 32 ∧ t.cfg = 1#4 ∧ gridAt t.qtLuma 0 1 = num 11 ∧ gridAt t.qtChroma 0 3 = num 47
    ∧ faulted (exec .config State.reset) 3 = true := by decide +kernel

/-- 95_test_vectors.md 2.0 (c): the corner block of a 13×11 plane is padded; block column 2 is outside. -/
theorem test_gld :
    let s := store 138 [139, 140, 141, 142, 143] (store 125 [126, 127, 128, 129, 130] (store 112 [113, 114, 115, 116, 117]
      (image 0 0 13 11 1 (args 1 1 0 0 State.reset))))
    let g := (after (exec (.gld 0 0) s)).grid 0
    gridAt g 0 0 = num 113 ∧ gridAt g 2 4 = num 143 ∧ gridAt g 0 5 = num 0 ∧ gridAt g 3 0 = num 0
    ∧ faulted (exec (.gld 0 0) (args 2 1 0 0 s)) 6 = true := by decide +kernel

/-- 95_test_vectors.md 2.0 (d): storing the same block writes 15 samples. -/
theorem test_gst :
    let t := after (exec (.gst 0 1) (image 0 0 13 11 1 (args 1 1 0 0 (State.reset.setGrid 1 (constant 7)))))
    t.mem.map (·.1) = [112, 113, 114, 115, 116, 125, 126, 127, 128, 129, 138, 139, 140, 141, 142]
    ∧ t.memRead 142 = num 7 := by decide +kernel

/-- 95_test_vectors.md 2.0 (g). -/
theorem test_grid_moves :
    faulted (exec (.gmov 2 1) State.reset) 2 = true
    ∧ (after (exec (.gmov 2 5) (after (exec (.gzero 5) State.reset)))).gvalid = 0x24#8
    ∧ faulted (exec (.gqt 2 .luma) State.reset) 2 = true
    ∧ gridAt ((after (exec (.gqt 2 .chroma) (config50 1))).grid 2) 0 0 = num 17 := by decide +kernel

/-- 95_test_vectors.md 2.0 (f). -/
theorem test_split_merge :
    let s := store 0 [1, 2, 3, 4, 5, 6] (image 1 6 2 1 1 (image 0 0 2 1 3 (args 0 0 1 0 State.reset)))
    let t := after (exec (.split 1 0) s)
    let u := after (exec (.merge 0 1) (store 6 [20, 50] t))
    t.memRead 6 = num 2 ∧ t.memRead 7 = num 5
    ∧ (List.range 6).map u.memRead = [num 1, num 20, num 3, num 4, num 50, num 6]
    ∧ faulted (exec (.split 1 0) (args 0 0 3 0 s)) 6 = true
    ∧ faulted (exec (.split 1 0) (image 1 5 2 1 1 s)) 8 = true := by decide +kernel

/-- 95_test_vectors.md 2.0 (h). -/
theorem test_copy :
    let s := store 0 [1, 2, 3, 4, 5, 6, 7, 8, 9, 10, 11, 12] (image 1 12 2 2 3 (image 0 0 2 2 3 State.reset))
    (after (exec (.copy 1 0) s)).memRead 23 = num 12
    ∧ faulted (exec (.copy 1 0) (image 1 11 2 2 3 s)) 8 = true
    ∧ faulted (exec (.copy 1 0) (image 1 12 4 1 3 s)) 7 = true := by decide +kernel

/-- R151's example (B, G, R) = (0, 0, 255), to binary64 by hand evaluation of the written order; R152's clamps. -/
theorem test_colour :
    let s := store 0 [0, 0, 255] (image 1 3 1 1 3 (image 0 0 1 1 3 State.reset))
    let t := after (exec (.cscF 1 0) s)
    let u := after (exec (.cscI 1 0) (store 0 [300, 128, 128] s))
    t.memRead 3 = 0x40530FAE147AE147#64 ∧ t.memRead 4 = 0x406FEE795D4E8FB0#64
    ∧ u.memRead 3 = num 255 ∧ u.memRead 5 = num 255 := by decide +kernel

/-- R164 (b) by hand evaluation in the written order with R161's constant 0.7071067811865476: the constant block 100 has DC
coefficient 800.0000000000002 (log 21: the digits R164 prints need the other neighbour of 1/√2). -/
theorem test_dct_forward :
    gridAt ((after (exec (.dctF 1 0) (State.reset.setGrid 0 (constant 100)))).grid 1) 0 0 = 0x4089000000000002#64 := by
  decide +kernel

/-- R163's example by hand evaluation: the single coefficient 800 gives 100 (two units in the last place above). -/
theorem test_dct_inverse :
    let F : Grid := zeroGrid.set 0 (num 800)
    gridAt ((after (exec (.dctI 1 0) (State.reset.setGrid 0 F))).grid 1) 0 0 = 0x4059000000000002#64 := by
  decide +kernel

/-- R174's example by hand evaluation: 252 and −128 up to the last places. -/
theorem test_haar8_forward :
    let g : Grid := Vector.ofFn fun k : Fin 64 => num k.val
    let t := after (exec (.haar8F 1 0) (State.reset.setGrid 0 g))
    gridAt (t.grid 1) 0 0 = 0x406F7FFFFFFFFFFC#64 ∧ gridAt (t.grid 1) 1 0 = 0xC05FFFFFFFFFFFFC#64 := by decide +kernel

/-- R174: all-zero in, all-zero out; the inverse needs a valid source. -/
theorem test_haar8_inverse :
    Binary64.isZero (gridAt ((after (exec (.haar8I 1 0) (State.reset.setGrid 0 zeroGrid))).grid 1) 3 5) = true
    ∧ faulted (exec (.haar8I 1 0) State.reset) 2 = true := by decide +kernel

/-- R180's table of level counts. -/
theorem test_dwt_lev :
    (after (exec (.dwtLev 0) (image 0 0 7 8 1 State.reset))).levels = 2#3
    ∧ (after (exec (.dwtLev 0) (image 0 0 128 128 1 State.reset))).levels = 6#3 := by decide +kernel

/-- R182 on the plane 1 2 / 3 4 with one level, by hand evaluation; a level count of 2 is too large. -/
theorem test_dwt_forward :
    let s := { twoPlanes 2 2 [1, 2, 3, 4] State.reset with levels := 1#3 }
    let t := after (exec (.dwtF 1 0) s)
    t.memRead 4 = num 5 ∧ t.memRead 5 = 0xBFEFFFFFFFFFFFFF#64 ∧ t.memRead 6 = num (-2)
    ∧ faulted (exec (.dwtF 1 0) { s with levels := 2#3 }) 6 = true := by decide +kernel

/-- R181: no levels is a copy. -/
theorem test_dwt_inverse_copies_without_levels :
    (List.range 4).map (after (exec (.dwtI 1 0) (twoPlanes 2 2 [1, 2, 3, 4] State.reset))).memRead
      = [num 1, num 2, num 3, num 4] := by decide +kernel

/-- R205, R206: 252 by step 16 is index 16, which gives 256. -/
theorem test_table_quantisers :
    let t := after (exec (.qBlk 1 0 .luma) ((config50 1).setGrid 0 (constant 252)))
    let u := after (exec (.dqBlk 2 1 .luma) t)
    gridAt (t.grid 1) 0 0 = num 16 ∧ gridAt (u.grid 2) 7 7 = num 256 := by decide +kernel

/-- R212, R213: 252 by the LL step 4 is index 63, which gives 252; −8 by a finest step is a quarter, index 0. -/
theorem test_wavelet_block_quantisers :
    let t := after (exec (.qwBlk 1 0) ((config50 1).setGrid 0 (constant 252)))
    let u := after (exec (.dqwBlk 2 1) t)
    let z := after (exec (.qwBlk 1 0) ((config50 1).setGrid 0 (constant (-8))))
    gridAt (t.grid 1) 0 0 = num 63 ∧ gridAt (u.grid 2) 0 0 = num 252
    ∧ Binary64.isZero (gridAt (z.grid 1) 7 7) = true := by decide +kernel

/-- R214, R215 with R211's steps: 16 in the LL and 32 elsewhere of a 2×2 plane with one level. -/
theorem test_wavelet_plane_quantisers :
    let s := { twoPlanes 2 2 [48, 160, -32, 70] (config50 1) with levels := 1#3 }
    let t := after (exec (.qwPln 1 0) s)
    let u := after (exec (.dqwPln 1 0) s)
    (List.range 4).map (fun k => t.memRead (4 + k)) = [num 3, num 5, num (-1), num 2]
    ∧ (List.range 4).map (fun k => u.memRead (4 + k)) = [num 768, num 5120, num (-1024), num 2240] := by decide +kernel

/-- R217: the all-zero grid costs 32 and the header. -/
theorem test_bits_of_zero_grid :
    bitEstimate Binary64.num (num 7) (gridSamples zeroGrid) = num 39
    ∧ faulted (exec (.bitsBlk 0) State.reset) 2 = true ∧ faulted (exec (.bitsPln 0) State.reset) 2 = true := by
  decide +kernel

/-- R232's example plane in 4:2:2 and 4:2:0. -/
theorem test_cdown :
    let s := store 0 [10, 20, 30, 40, 50, 60, 70, 80, 100] (image 0 0 3 3 1 State.reset)
    let t := after (exec (.cdown 1 0 1) (image 1 9 2 3 1 s))
    let u := after (exec (.cdown 1 0 2) (image 1 9 2 2 1 s))
    (List.range 6).map (fun k => t.memRead (9 + k)) = [num 15, num 30, num 45, num 60, num 75, num 100]
    ∧ (List.range 4).map (fun k => u.memRead (9 + k)) = [num 30, num 45, num 75, num 100] := by decide +kernel

/-- R233's example in 4:2:0. -/
theorem test_cup :
    let s := store 0 [30, 45, 75, 100] (image 1 4 3 3 1 (image 0 0 2 2 1 State.reset))
    (List.range 9).map (fun k => (after (exec (.cup 1 0 2) s)).memRead (4 + k))
      = [num 30, num 30, num 45, num 30, num 30, num 45, num 75, num 75, num 100] := by decide +kernel

/-- R241: a plane smaller than a block is copied whole in the DCT path; R242: without a configuration it faults. -/
theorem test_proc_pln :
    (List.range 4).map (fun k => (after (exec (.procPln 1 0 .luma) (twoPlanes 2 2 [1, 2, 3, 4] (config50 1)))).memRead
      (4 + k)) = [num 1, num 2, num 3, num 4]
    ∧ faulted (exec (.procPln 1 0 .luma) (twoPlanes 2 2 [1, 2, 3, 4] State.reset)) 2 = true := by decide +kernel

/-- R302, R241: a plane without a full block is copied also under a table of infinities (which a tiny quality gives). -/
theorem test_proc_pln_small_plane_reads_no_table :
    let s := { twoPlanes 2 2 [1, 2, 3, 4] (config50 1) with qtLuma := Vector.replicate 64 0x7FF0000000000000#64 }
    (List.range 4).map (fun k => (after (exec (.procPln 1 0 .luma) s)).memRead (4 + k)) = [num 1, num 2, num 3, num 4] := by
  decide +kernel

/-- R245: five valid zero grids under the wavelet configuration, whatever the arguments; BAD_ARG under block-DCT. -/
theorem test_inspect :
    let s := image 0 0 2 2 1 (args 9 9 9 0 (config50 9))
    (after (exec (.inspect 0 .luma) s)).gvalid = 0x1F#8
    ∧ gridAt ((after (exec (.inspect 0 .luma) s)).grid 4) 7 7 = num 0
    ∧ faulted (exec (.inspect 0 .luma) { s with cfg := 1#4 }) 6 = true := by decide +kernel

/-- R262: 100.0 for the image with itself; R261: the soft result for unequal shapes. -/
theorem test_psnr :
    (after (exec (.psnr 0 1) (samePair 2 1 1 [3, 4]))).res0 = num 100
    ∧ (after (exec (.psnr 0 1) (image 1 2 1 2 1 (samePair 2 1 1 [3, 4])))).status.mismatch = true
    ∧ (after (exec (.psnr 0 1) (image 1 2 1 2 1 (samePair 2 1 1 [3, 4])))).status.fault = false := by decide +kernel

/-- R266: no window in a 7×20 plane; SHAPE for matching multi-channel images; the soft result comes first. -/
theorem test_ssim :
    faulted (exec (.ssim 0 0) (image 0 0 7 20 1 State.reset)) 9 = true
    ∧ faulted (exec (.ssim 0 0) (image 0 0 8 8 3 State.reset)) 7 = true
    ∧ faulted (exec (.ssim 0 1) (image 1 0 9 9 3 (image 0 0 7 20 1 State.reset))) 9 = false := by decide +kernel

/-- R264: equal windows have index 1. -/
theorem test_ssim_index :
    ssimIndex Binary64.num (List.replicate 64 (num 5)) (List.replicate 64 (num 5)) = num 1 := by decide +kernel

/-- R270's examples with the reset gain 5. -/
theorem test_artmap :
    let s := store 0 [10, 100, 12, 49] (image 2 4 2 1 1 (image 1 2 2 1 1 (image 0 0 2 1 1 State.reset)))
    let t := after (exec (.artmap 2 0 1) s)
    t.memRead 4 = num 10 ∧ t.memRead 5 = num 255 ∧ t.status.mismatch = false := by decide +kernel

/-! ## Arithmetic -/

/-- R9's examples, the last one the spec's trap: the rounding is of the exact value. -/
theorem test_rnd :
    Binary64.rnd 0x4004000000000000#64 = num 3 ∧ Binary64.rnd 0xC004000000000000#64 = num (-3)
    ∧ Binary64.rnd 0x3FE0000000000000#64 = num 1 ∧ Binary64.isZero (Binary64.rnd 0x3FDFFFFFFFFFFFFF#64) = true := by
  decide +kernel

/-- R200's values: scale(1) = 50, scale(25) = 2, scale(75) = 0.5, scale(150) = −1. -/
theorem test_scale :
    scaleOf Binary64.num (num 1) = num 50 ∧ scaleOf Binary64.num (num 25) = num 2
    ∧ scaleOf Binary64.num (num 75) = Binary64.ofDec 5 1 ∧ scaleOf Binary64.num (num 150) = num (-1) := by decide +kernel

/-- R41: the reset gain is 5.0. -/
theorem test_reset_gain : State.reset.gain = num 5 := by decide +kernel

/-! ## Witnesses: states and operands that meet the hypotheses of the statements, clause by clause -/

theorem witness_DecodeInvertsEncode : (Instr.cdown 1 0 2#2).wellFormed = true ∧ Instr.nop.wellFormed = true := by decide

theorem witness_DecodedWordIsItsOnlyEncoding : decode 0x60204000#32 = .ok (.cdown 1 0 2) := by decide

/-- An opcode of each listed range, its ends included where it has two; an assigned opcode with a must-be-zero bit. -/
theorem witness_IllegalWordsAreRejected :
    ([0x03, 0x0F, 0x15, 0x17, 0x1B, 0x1F, 0x22, 0x2F, 0x32, 0x3F, 0x42, 0x43, 0x47, 0x4F, 0x56, 0x57, 0x5A, 0x5F, 0x62,
      0x6F, 0x72, 0x7F, 0x83, 0xFF].all fun op => decide (decode (BitVec.ofNat 32 op <<< 24) = .error .unassignedOpcode))
      = true
    ∧ 0x30208000#32 >>> 24 = (Instr.dctF 1 0).opcode.setWidth 32
    ∧ 0x30208000#32 &&& (Instr.dctF 1 0).format.mask ≠ (Instr.dctF 1 0).opcode.setWidth 32 <<< 24 := by decide

/-- The states of the three statements about a write to `CMD`. -/
theorem witness_command_writes :
    let run := doing (.regWrite 0x04#8 0x13A00000#64) State.reset
    let bad := doing (.regWrite 0x04#8 0x03000000#64) State.reset
    let halted := doing (.regWrite 0x04#8 0#64) (State.reset.raise 0x03000000#32 .illegalCmd)
    run.script = [.regWrite 0x04#8 0x13A00000#64] ∧ run.status.fault = false
    ∧ decode ((0x13A00000#64).setWidth 32) = .ok (.gzero 5)
    ∧ bad.script = [.regWrite 0x04#8 0x03000000#64] ∧ bad.status.fault = false
    ∧ decode ((0x03000000#64).setWidth 32) = .error .unassignedOpcode
    ∧ halted.script = [.regWrite 0x04#8 0#64] ∧ halted.status.fault = true := by decide +kernel

/-- A configured state with images, a halted one, and what the next action of each gives. -/
def configuredState : State := doing (.regWrite 0x04#8 0#64) (twoPlanes 1 1 [5] (config50 1))

theorem constant_at (n : Int) (i j : Nat) : gridAt (constant n) i j = num n := by simp [gridAt, constant]

/-- A state that meets the invariant with a valid configuration, valid images and written memory, and whose step answers
(`EveryStepKeepsTheInvariant`, `StepAlwaysAnswersNext`). -/
theorem witness_invariant : configuredState.Inv ∧ ∃ t, step configuredState = .next t := by
  refine ⟨⟨?_, ?_, ?_, ?_, rfl⟩, _, rfl⟩
  · unfold State.memoryOk; decide +kernel
  · unfold State.descriptorsOk; decide +kernel
  · unfold State.faultFieldsOk; decide +kernel
  · refine ⟨fun t i j _ _ => ?_, by decide +kernel, by decide +kernel, by decide +kernel⟩
    cases t
    · exact (congrArg _ (constant_at 16 i j)).trans (by decide +kernel)
    · exact (congrArg _ (constant_at 17 i j)).trans (by decide +kernel)

/-- Commands that answer a next state, one that completes and one that faults, none of them `DWT.LEV`, `DSET`, a metric or a
writer of memory; grid 5 and descriptor 0 are valid where the statement needs a valid one. -/
theorem witness_commands_answer :
    (∃ t, exec .nop State.reset = .next t) ∧ (∃ t, exec (.gmov 1 0) State.reset = .next t)
    ∧ (∃ t, exec .nop ((image 0 0 1 1 1 State.reset).setGrid 5 zeroGrid) = .next t)
    ∧ ((image 0 0 1 1 1 State.reset).setGrid 5 zeroGrid).gridValid 5 = true
    ∧ ((image 0 0 1 1 1 State.reset).setGrid 5 zeroGrid).descValid 0 = true
    ∧ writesMemory .nop = false ∧ readsMemory .nop 0#4 = false ∧ readsMemory (.inspect 0 .luma) 8#4 = false
    ∧ writesMemory (.psnr 0 1) = false :=
  ⟨⟨_, rfl⟩, ⟨_, rfl⟩, ⟨_, rfl⟩, by decide +kernel, by decide +kernel, rfl, rfl, rfl, rfl⟩

/-- A halted state that goes on halted, and steps of a configured state (`HaltEndsOnlyByReset`,
`OnlyConfigChangesTheActiveConfiguration`). -/
theorem witness_steps_answer :
    (let s := doing (.memRead 0#32) (State.reset.raise 0#32 .uninit)
     s.status.fault = true ∧ ∃ t, step s = .next t)
    ∧ ∃ t, step configuredState = .next t :=
  ⟨⟨rfl, _, rfl⟩, _, rfl⟩

/-- Host actions of each kind at boundary indices and addresses; a valid and an invalid descriptor. -/
theorem witness_host_actions :
    (doing (.regRead 0x19#8) State.reset).script = [.regRead 0x19#8]
    ∧ (image 7 0 1 1 1 State.reset).descValid 7 = true ∧ (image 7 0 1 1 1 State.reset).descValid 0 = false
    ∧ ([0x08#8, 0x09#8, 0x0E#8, 0x0F#8, 0x10#8, 0x11#8, 0x12#8, 0x13#8].all fun i =>
        decide ((doing (.regWrite i 0#64) State.reset).script = [.regWrite i 0#64])) = true
    ∧ ([0x04#8, 0x05#8, 0x14#8, 0x17#8, 0x1A#8, 0x3F#8, 0x60#8, 0xFF#8].all fun i =>
        decide ((after (step (doing (.regRead i) State.reset))).response = .refused)) = true
    ∧ ([0x00#8, 0x03#8, 0x06#8, 0x07#8, 0x0A#8, 0x0D#8, 0x14#8, 0x40#8, 0xFF#8].all fun i =>
        decide ((after (step (doing (.regWrite i 0#64) State.reset))).response = .refused)) = true
    ∧ (4095#32).toNat < State.memSamples { State.reset with memTop := 4095 }
    ∧ ¬ (4096#32).toNat < State.memSamples { State.reset with memTop := 4095 }
    ∧ (doing .resetInput State.reset).script = [.resetInput]
    ∧ (1#64).getLsbD 0 = true ∧ (2#64).getLsbD 0 = false := by decide +kernel

theorem witness_NopOnlyCounts :
    0x00000001#32 >>> 24 = 0 ∧ 0x00000001#32 ≠ 0 ∧ 0x00FFFFFF#32 >>> 24 = 0 ∧ 0x00FFFFFF#32 ≠ 0 := by decide

/-- Quality 0 and an infinite quality; the reserved chroma mode; a quality that is accepted. -/
theorem witness_ConfigDerivesTables :
    Binary64.le State.reset.quality 0#64 = true ∧ Binary64.isFinite 0x7FF0000000000000#64 = false
    ∧ (6#4).extractLsb' 1 2 = 3#2
    ∧ Binary64.isFinite (num 50) = true ∧ Binary64.le (num 50) 0#64 = false ∧ (1#4).extractLsb' 1 2 ≠ 3#2 := by
  decide +kernel

/-- Each dimension check at its boundary, the bounds check one sample beyond plane memory, and a region that just fits. -/
theorem witness_DsetBuildsDescriptor :
    let m (s : State) : State := { s with memTop := 4095 }
    (m (args 0 65536 1 1 State.reset)).a1.toNat = 65536 ∧ (m (args 0 1 1 256 State.reset)).a3.toNat = 256
    ∧ (m (args 4033 8 8 1 State.reset)).memSamples < 4033 + 8 * 8 * 1
    ∧ ¬ (m (args 4032 8 8 1 State.reset)).memSamples < 4032 + 8 * 8 * 1
    ∧ (m (args 4032 8 8 1 State.reset)).a3.toNat = 1 := by decide +kernel

/-- No descriptor; channel 1 of 1; a block column just outside; the last block of a plane, with finite samples. -/
theorem witness_GldLoadsPaddedBlock :
    let s := store 0 [1, 2] (image 0 0 9 1 1 (args 1 0 0 0 State.reset))
    let t := store 8 [3] s
    State.reset.descValid 0 = false ∧ t.descValid 0 = true
    ∧ (t.desc 0).c.toNat ≤ (args 1 0 1 0 t).a2.toNat ∧ ¬ (t.desc 0).c.toNat ≤ t.a2.toNat
    ∧ (t.desc 0).w.toNat ≤ 8 * (args 2 0 0 0 t).a0.toNat
    ∧ ¬ ((t.desc 0).w.toNat ≤ 8 * t.a0.toNat ∨ (t.desc 0).h.toNat ≤ 8 * t.a1.toNat)
    ∧ (t.desc 0).legal t.memSamples = true
    ∧ (∀ i, i < 8 → ∀ j, j < 8 → 8 * t.a1.toNat + i < (t.desc 0).h.toNat → 8 * t.a0.toNat + j < (t.desc 0).w.toNat →
        Binary64.isFinite (t.memRead ((t.desc 0).idx (8 * t.a1.toNat + i) (8 * t.a0.toNat + j) t.a2.toNat)) = true) := by
  decide +kernel

/-- A grid without a valid bit, and the storing case with a finite grid (the argument clauses as for `GLD`). -/
theorem witness_GstStoresClippedBlock :
    let s := image 0 0 9 1 1 (args 1 0 0 0 State.reset)
    let t := s.setGrid 3 (constant 7)
    s.descValid 0 = true ∧ s.gridValid 3 = false ∧ t.gridValid 3 = true ∧ FiniteGrid (t.grid 3)
    ∧ (t.desc 0).c.toNat ≤ (args 1 0 1 0 t).a2.toNat ∧ (t.desc 0).h.toNat ≤ 8 * (args 1 1 0 0 t).a1.toNat
    ∧ ¬ (t.desc 0).c.toNat ≤ t.a2.toNat ∧ ¬ ((t.desc 0).w.toNat ≤ 8 * t.a0.toNat ∨ (t.desc 0).h.toNat ≤ 8 * t.a1.toNat)
    ∧ (t.desc 0).legal t.memSamples = true := by decide +kernel

/-- Valid and invalid grids, finite contents and a configuration, for the commands from grid to grid, with and without a
table (`GridMovesFillOneGrid`, the block transforms, the block quantisers, `BITS.BLK`). -/
theorem witness_grid_commands :
    let s := (config50 1).setGrid 2 (constant 7)
    s.gridValid 2 = true ∧ s.gridValid 3 = false ∧ s.status.cfgv = true ∧ State.reset.status.cfgv = false
    ∧ FiniteGrid (s.grid 2) ∧ FiniteGrid (s.table .luma) ∧ FiniteGrid (s.table .chroma)
    ∧ Binary64.isFinite s.basestep = true := by decide +kernel

/-- The clauses shared by the image commands: an invalid descriptor, two shapes that differ, regions that share the one
address 1, and two legal finite images side by side. -/
theorem witness_image_pairs :
    let s := samePair 2 1 1 [3, 4]
    let c := samePair 1 1 3 [10, 20, 30]
    State.reset.descValid 0 = false ∧ s.descValid 0 = true ∧ s.descValid 1 = true
    ∧ (s.desc 0).c = 1 ∧ (s.desc 0).w = (s.desc 1).w ∧ (s.desc 0).h = (s.desc 1).h ∧ (s.desc 0).c = (s.desc 1).c
    ∧ ((image 1 2 3 1 1 s).desc 1).w ≠ (s.desc 0).w ∧ ((image 1 2 2 1 2 s).desc 1).c ≠ 1
    ∧ (s.desc 0).meets ((image 1 1 2 1 1 s).desc 1) = true ∧ (s.desc 1).meets (s.desc 0) = false
    ∧ (s.desc 0).legal s.memSamples = true ∧ (s.desc 1).legal s.memSamples = true
    ∧ s.finiteChannel (s.desc 0) 0 ∧ s.finiteImage (s.desc 0) ∧ s.finiteImage (s.desc 1)
    ∧ (c.desc 0).c = 3 ∧ (c.desc 1).c = 3 ∧ (c.desc 1).meets (c.desc 0) = false ∧ c.finiteImage (c.desc 0)
    ∧ (c.desc 0).legal c.memSamples = true ∧ (c.desc 1).legal c.memSamples = true := by
  decide +kernel

/-- `SPLIT` and `MERGE`: the first channel number that is too large and the last that is not, with a three-channel image and
a plane apart from it, both finite. -/
theorem witness_split_merge :
    let s := store 0 [1, 2, 3, 4] (image 1 3 1 1 1 (image 0 0 1 1 3 (args 0 0 2 0 State.reset)))
    (s.desc 1).c = 1 ∧ (s.desc 1).w = (s.desc 0).w ∧ (s.desc 1).h = (s.desc 0).h
    ∧ (s.desc 0).c.toNat ≤ (args 0 0 3 0 s).a2.toNat ∧ ¬ (s.desc 0).c.toNat ≤ s.a2.toNat
    ∧ (s.desc 1).meets (s.desc 0) = false ∧ (s.desc 0).meets (s.desc 1) = false
    ∧ (s.desc 0).legal s.memSamples = true ∧ (s.desc 1).legal s.memSamples = true
    ∧ s.finiteChannel (s.desc 0) 2 ∧ s.finiteChannel (s.desc 1) 0 := by decide +kernel

/-- The full-image wavelet: the largest level count a 3×2 plane allows and the first it does not; a position inside R(0) and
the trailing column outside it. -/
theorem witness_wavelet_planes :
    let s := { twoPlanes 3 2 [1, 2, 3, 4, 5, 6] (config50 9) with levels := 1#3 }
    ¬ calcLevels 3 2 < s.levels.toNat ∧ calcLevels 3 2 < (2#3).toNat ∧ (s.desc 0).w.toNat = 3 ∧ (s.desc 0).h.toNat = 2
    ∧ (s.desc 1).meets (s.desc 0) = false ∧ s.finiteChannel (s.desc 0) 0 ∧ Binary64.isFinite s.basestep = true
    ∧ (s.desc 0).legal s.memSamples = true ∧ (s.desc 1).legal s.memSamples = true
    ∧ ¬ (3 - 3 % 2 ≤ 1) ∧ 3 - 3 % 2 ≤ 2 ∧ s.status.cfgv = true ∧ s.cfg.getLsbD 3 = true
    ∧ (config50 1).cfg.getLsbD 3 = false ∧ (config50 1).cfg.getLsbD 0 = true := by decide +kernel

/-- R211's clauses on the 7×8 plane with two levels: the final LL, a region of each level, column 6 outside R(0), and no
levels. -/
theorem witness_DwtStepFollowsRegions :
    (0 < levelDim 7 2 ∧ 1 < levelDim 8 2) ∧ (¬ 1 < levelDim 7 2 ∧ 1 < levelEven 7 1 ∧ 3 < levelEven 8 1)
    ∧ (¬ 2 < levelEven 7 1 ∧ 2 < levelEven 7 0) ∧ ¬ 6 < levelEven 7 0 := by decide

/-- The chroma shapes: a 3×3 plane and its 2×2 and 2×3 halves, apart and finite; a 3×3 plane is no half of it. -/
theorem witness_chroma_shapes :
    let s := store 0 [10, 20, 30, 40, 50, 60, 70, 80, 100] (image 1 9 2 2 1 (image 0 0 3 3 1 State.reset))
    let u := store 9 [1, 2, 3, 4] s
    2#2 ≠ 3#2 ∧ (s.desc 1).w.toNat = ((s.desc 0).w.toNat + 2 - 1) / 2 ∧ (s.desc 1).h.toNat = ((s.desc 0).h.toNat + 2 - 1) / 2
    ∧ ((image 1 9 3 3 1 s).desc 1).w.toNat ≠ ((s.desc 0).w.toNat + 2 - 1) / 2
    ∧ (s.desc 1).meets (s.desc 0) = false ∧ (u.desc 0).meets (u.desc 1) = false
    ∧ (s.desc 0).legal s.memSamples = true ∧ (s.desc 1).legal s.memSamples = true
    ∧ s.finiteChannel (s.desc 0) 0 ∧ u.finiteChannel (u.desc 1) 0 := by decide +kernel

/-- `INSPECT`: the wavelet configuration, and under block-DCT the argument clauses and a finite block with a finite table. -/
theorem witness_InspectFillsSnapshot :
    let s := store 0 [1, 2] (image 0 0 2 1 1 (config50 1))
    (config50 9).cfg.getLsbD 3 = true ∧ s.cfg.getLsbD 3 = false ∧ s.descValid 0 = true ∧ s.status.cfgv = true
    ∧ (s.desc 0).c.toNat ≤ (args 0 0 1 0 s).a2.toNat ∧ (s.desc 0).w.toNat ≤ 8 * (args 1 0 0 0 s).a0.toNat
    ∧ ¬ (s.desc 0).c.toNat ≤ s.a2.toNat ∧ ¬ ((s.desc 0).w.toNat ≤ 8 * s.a0.toNat ∨ (s.desc 0).h.toNat ≤ 8 * s.a1.toNat)
    ∧ (s.desc 0).legal s.memSamples = true ∧ FiniteGrid (s.table .luma)
    ∧ (∀ i, i < 8 → ∀ j, j < 8 → 8 * s.a1.toNat + i < (s.desc 0).h.toNat → 8 * s.a0.toNat + j < (s.desc 0).w.toNat →
        Binary64.isFinite (s.memRead ((s.desc 0).idx (8 * s.a1.toNat + i) (8 * s.a0.toNat + j) s.a2.toNat)) = true) := by
  decide +kernel

/-- `SSIM`: matching planes one sample too narrow, matching images of three channels, and a legal finite 8×8 plane. -/
theorem witness_SsimAveragesWindows :
    let s := store 0 (List.replicate 64 5) (image 0 0 8 8 1 State.reset)
    ((image 0 0 7 8 1 s).desc 0).w.toNat < 8 ∧ ((image 0 0 8 8 3 s).desc 0).c ≠ 1
    ∧ (s.desc 0).c = 1 ∧ ¬ ((s.desc 0).w.toNat < 8 ∨ (s.desc 0).h.toNat < 8) ∧ s.descValid 0 = true
    ∧ (s.desc 0).legal s.memSamples = true ∧ s.finiteImage (s.desc 0) := by decide +kernel

/-- `ARTMAP`: three planes apart with a finite gain, and second sources of another shape. -/
theorem witness_ArtmapAmplifiesDifference :
    let s := store 0 [10, 100, 12, 49] (image 2 4 2 1 1 (image 1 2 2 1 1 (image 0 0 2 1 1 State.reset)))
    s.descValid 0 = true ∧ s.descValid 1 = true ∧ s.descValid 2 = true
    ∧ (s.desc 2).w = (s.desc 0).w ∧ (s.desc 2).h = (s.desc 0).h ∧ (s.desc 2).c = (s.desc 0).c
    ∧ (s.desc 2).meets (s.desc 0) = false ∧ (s.desc 2).meets (s.desc 1) = false
    ∧ (s.desc 0).w = (s.desc 1).w ∧ (s.desc 0).w ≠ ((image 1 2 1 1 1 s).desc 1).w
    ∧ s.finiteImage (s.desc 0) ∧ s.finiteImage (s.desc 1) ∧ Binary64.isFinite s.gain = true
    ∧ (s.desc 0).legal s.memSamples = true ∧ (s.desc 1).legal s.memSamples = true
    ∧ (s.desc 2).legal s.memSamples = true := by decide +kernel

/-- Line positions of `Haar8TransformsGrid` at the ends of their range, and a grid position. -/
theorem witness_Haar8TransformsGrid : 8 % 2 = 0 ∧ 0 < 8 / 2 ∧ 3 < 8 / 2 ∧ 7 < 8 := by decide

/-- A finite block within the bound of the binary64 clauses of `RealDctRoundTrip` and `RealDctOfConstantBlock`. -/
theorem witness_binary64_block :
    FiniteGrid (constant 5) ∧ Binary64.isFinite (num 5) = true ∧ |sampleReal (num 5)| ≤ 256
    ∧ ∀ i j, i < 8 → j < 8 → |sampleReal (gridAt (constant 5) i j)| ≤ 256 := by
  have e : Binary64.value (num 5) = 5 * 2 ^ 1074 := by decide +kernel
  have h : |sampleReal (num 5)| ≤ 256 := by
    rw [sampleReal, e, Int.cast_mul, Int.cast_pow, Int.cast_ofNat, Int.cast_ofNat, mul_div_assoc, div_self (by positivity)]
    norm_num
  exact ⟨by decide +kernel, by decide +kernel, h, fun i j _ _ => (constant_at 5 i j).symm ▸ h⟩

/-- Positions and a step for the statements over the reals. -/
theorem witness_reals : (7 < 8 ∧ 0 < 8) ∧ (2 < 3 ∧ 4 < 5) ∧ (1 : ℝ) ≤ 16 := by norm_num

/-! ## Listings (R101, R250) -/

/-- `DESC d0, 0, 8, 8, 1` (R101) ends in the word R122 prints for `DSET d0`. -/
theorem test_listing_desc : listDesc 0 0 8 8 1 = [.regWrite 0x10 0, .regWrite 0x11 8, .regWrite 0x12 8, .regWrite 0x13 1,
    .regWrite 0x04 0x02000000] := by decide

/-- `SETCFG q, 1, 2, 0` (R101): `CFGSTAGE` is 0 · 8 + 2 · 2 + 1. -/
theorem test_listing_setcfg (q : Sample) :
    listSetCfg q true 2 false = [.regWrite 0x09 q, .regWrite 0x08 5, .regWrite 0x04 0x01000000] := rfl

/-- `process` in mode 4:2:0 (R250) downsamples each chroma plane with `CDOWN d4, d2, 420`. -/
theorem test_listing_process : (listProcess 2).length = 21 ∧ (listProcess 2)[8]? = some (.regWrite 0x04 0x60884000) := by
  decide

end Sys2Proof.Tests
end

section
/-! PROOF. Binary64 results that are never a NaN: the derivation of the scale and of the quantisation tables (R200, R202) from
a finite positive quality, so that every entry is at least 1.0 (R24). -/

namespace Sys2Proof.Machine.Binary64

theorem roundMag_le_infMag (n d : Nat) : roundMag n d ≤ infMag := by
  unfold roundMag
  exact Nat.min_le_left _ _

/-- A packed magnitude up to infinity is no NaN. -/
theorem isNaN_pack (neg : Bool) {m : Nat} (h : m ≤ infMag) : isNaN (pack neg m) = false := by
  have hm : magBits (pack neg m) = m := by
    unfold infMag at h
    cases neg <;> simp only [magBits, pack, BitVec.toNat_ofNat, if_true, Bool.false_eq_true, if_false] <;> omega
  simpa [isNaN, hm] using h

theorem isNaN_pack_roundMag (neg : Bool) (n d : Nat) : isNaN (pack neg (roundMag n d)) = false :=
  isNaN_pack neg (roundMag_le_infMag n d)

theorem magBits_neg (a : Sample) : magBits (neg a) = magBits a := by
  have h : (neg a).setWidth 63 = a.setWidth 63 := by
    unfold neg
    rw [BitVec.setWidth_xor]
    simp
  simpa [magBits] using congrArg BitVec.toNat h

theorem isNaN_ofInt (i : Int) : isNaN (ofInt i) = false := isNaN_pack_roundMag _ _ _

theorem isNaN_rnd {a : Sample} (ha : isNaN a = false) : isNaN (rnd a) = false := by
  unfold rnd
  rw [ha]
  cases hi : isInf a
  · exact isNaN_pack_roundMag _ _ _
  · exact ha

/-- A difference from a finite sample. -/
theorem isNaN_sub {a b : Sample} (ha : isFinite a = true) (hb : isNaN b = false) : isNaN (sub a b) = false := by
  have hn : isNaN (neg b) = false := by rwa [isNaN, magBits_neg]
  unfold sub add
  simp only [not_isNaN ha, not_isInf ha, hb, hn, Bool.or_self, Bool.false_eq_true, if_false]
  split
  · exact hn
  · split
    · exact isNaN_pack _ (Nat.zero_le _)
    · exact isNaN_pack_roundMag _ _ _

/-- A product with a finite factor that is no zero. -/
theorem isNaN_mul {a b : Sample} (ha : isFinite a = true) (h0 : isZero a = false) (hb : isNaN b = false) :
    isNaN (mul a b) = false := by
  unfold mul
  simp only [not_isNaN ha, not_isInf ha, h0, hb, Bool.or_self, Bool.false_eq_true, if_false]
  split
  · exact isNaN_pack _ (Nat.le_refl _)
  · exact isNaN_pack_roundMag _ _ _

/-- A quotient by a finite divisor that is no zero. -/
theorem isNaN_div {a b : Sample} (ha : isNaN a = false) (hb : isFinite b = true) (h0 : isZero b = false) :
    isNaN (div a b) = false := by
  unfold div
  simp only [not_isNaN hb, not_isInf hb, h0, ha, Bool.or_self, Bool.false_eq_true, if_false]
  split
  · exact isNaN_pack _ (Nat.le_refl _)
  · exact isNaN_pack_roundMag _ _ _

/-- The larger of two samples is at least the first. -/
theorem le_max_left {a b : Sample} (ha : isNaN a = false) (hb : isNaN b = false) : le a (max a b) = true := by
  unfold max le lt
  simp only [ha, hb, Bool.or_self, Bool.not_false, Bool.true_and, Bool.false_eq_true, if_false]
  split
  · rename_i h
    simpa [hb] using Int.le_of_lt (of_decide_eq_true h)
  · simp [ha]

theorem sampleReal_of_isZero {x : Sample} (h : isZero x = true) : sampleReal x = 0 := by
  have hm : magBits x = 0 := by simpa [isZero] using h
  rw [sampleReal_eq, units_eq, hm]
  simp [magUnits]

/-- The sample of a positive integer of moderate size is finite and no zero. -/
theorem ofInt_finite_nonzero {i : Int} (h1 : 1 ≤ i) (h2 : i ≤ 5000) :
    isFinite (ofInt i) = true ∧ isZero (ofInt i) = false := by
  have r1 : (1 : ℝ) ≤ i := by exact_mod_cast h1
  have r2 : (i : ℝ) ≤ 5000 := by exact_mod_cast h2
  have habs : |(i : ℝ)| = i := abs_of_nonneg (by linarith)
  obtain ⟨hf, hw⟩ := ofInt_within i (by
    rw [habs]
    calc (i : ℝ) ≤ 2 ^ 13 := r2.trans (by norm_num)
      _ ≤ 2 ^ 1000 := pow_le_pow_right₀ one_le_two (by norm_num))
  refine ⟨hf, Bool.eq_false_iff.2 fun hz => ?_⟩
  rw [sampleReal_of_isZero hz, zero_sub, abs_neg, habs] at hw
  have htiny : (1 : ℝ) / 2 ^ 1075 ≤ 1 / 2 ^ 2 := one_div_pow_le_one_div_pow_of_le one_le_two (by norm_num)
  have hsmall := hw.trans (add_le_add_right htiny _)
  linarith only [hsmall, r1]

/-- A finite quality that is not ≤ 0 is positive and no zero (check 1 of R203). -/
theorem positive_of_not_le {q : Sample} (hq : isFinite q = true) (hle : le q zeroSample = false) :
    lt zeroSample q = true ∧ isZero q = false := by
  have hz : isNaN zeroSample = false := by decide
  have hr : rank zeroSample = 0 := by decide
  have hpos : 0 < rank q := by simpa [le, not_isNaN hq, hz, hr] using hle
  refine ⟨by simp [lt, not_isNaN hq, hz, hr, hpos], Bool.eq_false_iff.2 fun h0 => ?_⟩
  have hm : magBits q = 0 := by simpa [isZero] using h0
  simp [rank, hm] at hpos

/-- The scale of a finite nonzero quality is a number, though it may be infinite (R200). -/
theorem isNaN_scaleOf {q : Sample} (hq : isFinite q = true) (h0 : isZero q = false) : isNaN (scaleOf num q) = false := by
  obtain ⟨f100, z100⟩ := ofInt_finite_nonzero (i := 100) (by decide) (by decide)
  obtain ⟨f2, z2⟩ := ofInt_finite_nonzero (i := 2) (by decide) (by decide)
  obtain ⟨f200, -⟩ := ofInt_finite_nonzero (i := 200) (by decide) (by decide)
  refine isNaN_div ?_ f100 z100
  split
  · exact isNaN_div (isNaN_ofInt _) hq h0
  · exact isNaN_sub f200 (isNaN_mul f2 z2 (not_isNaN hq))

end Sys2Proof.Machine.Binary64

namespace Sys2Proof.Machine

/-- The entries of the two base tables (R201). -/
theorem baseEntry_bounds (t : TableSel) {i j : Nat} (hi : i < 8) (hj : j < 8) :
    1 ≤ baseEntry t i j ∧ baseEntry t i j ≤ 121 := by
  have luma : ∀ i j : Fin 8, 1 ≤ baseEntry .luma i j ∧ baseEntry .luma i j ≤ 121 := by decide
  have chroma : ∀ i j : Fin 8, 1 ≤ baseEntry .chroma i j ∧ baseEntry .chroma i j ≤ 121 := by decide
  cases t
  · exact luma ⟨i, hi⟩ ⟨j, hj⟩
  · exact chroma ⟨i, hi⟩ ⟨j, hj⟩

/-- Every entry of a table derived from a scale that is a number is at least 1.0 (R24, R202). -/
theorem one_le_deriveTable (t : TableSel) {x : Sample} (hx : Binary64.isNaN x = false) {i j : Nat} (hi : i < 8)
    (hj : j < 8) : Binary64.le (Binary64.ofInt 1) (gridAt (deriveTable Binary64.num t x) i j) = true := by
  obtain ⟨hlo, hhi⟩ := baseEntry_bounds t hi hj
  obtain ⟨hf, h0⟩ := Binary64.ofInt_finite_nonzero (i := baseEntry t i j) (by omega) (by omega)
  rw [deriveTable, gridAt_gridOf _ hi hj]
  exact Binary64.le_max_left (Binary64.isNaN_ofInt 1) (Binary64.isNaN_rnd (Binary64.isNaN_mul hf h0 hx))

end Sys2Proof.Machine
end

section
/-! PROOF. What a command can do, said once for all 35: `exec_cases`. A command that answers either raises a fault, or
completes after one of the writes that `CommandEffect` lists. -/

namespace Sys2Proof.Machine

/-! ## Checks and memory reach -/

/-- All checks pass exactly when no failing condition holds. -/
theorem firstFault_cons_eq_none (check : Bool × FaultCode) (rest : Checks) :
    firstFault (check :: rest) = none ↔ check.1 = false ∧ firstFault rest = none := by
  obtain ⟨failing, f⟩ := check
  cases failing <;> simp

/-- The first image a completed command reaches through a descriptor is legal (R23). -/
theorem reaching_head {s t : State} {d : Desc} {images : List Desc} {effects : Result}
    (h : reaching s (d :: images) effects = .next t) : d.legal s.memSamples = true ∧ effects = .next t := by
  obtain ⟨hl, he⟩ := reaching_cases h
  rw [List.all_cons, Bool.and_eq_true] at hl
  exact ⟨hl.1, he⟩

/-- An address of a position inside a legal image is inside plane memory (R68). -/
theorem Desc.idx_lt_memSamples {n : Nat} {d : Desc} (hl : d.legal n = true) {row col ch : Nat} (hr : row < d.h.toNat)
    (hc : col < d.w.toNat) (hch : ch < d.c.toNat) : d.idx row col ch < n := by
  obtain ⟨-, -, -, hlim⟩ := (Desc.legal_iff n d).1 hl
  exact Nat.lt_of_lt_of_le (d.idx_lt_limit hr hc hch) hlim

/-! ## The effects of a completed command -/

/-- The grid register that a command of one destination grid writes. -/
def gridDest (i : Instr) : Option RegNum :=
  match i with
  | .gld gd _ | .gmov gd _ | .gzero gd | .gqt gd _ | .dctF gd _ | .dctI gd _ | .haar8F gd _ | .haar8I gd _
  | .qBlk gd _ _ | .dqBlk gd _ _ | .qwBlk gd _ | .dqwBlk gd _ => some gd
  | _ => none

/-- `CommandEffect s i u`: from state s, command i can pass its checks and write what makes state u, before the frame's last
effects (R121). -/
inductive CommandEffect (s : State) : Instr → State → Prop
  | nop : CommandEffect s .nop s
  | config (hq : s.badQuality = false) (hm : cfgChroma s.cfgstage ≠ 3) : CommandEffect s .config s.configured
  | dset (dd : RegNum) (hd : s.badDims = false) (hb : s.outOfBounds = false) :
      CommandEffect s (.dset dd) (s.setDesc dd s.stagedDesc)
  | dwtLev (ds : RegNum) (l : Nat) : CommandEffect s (.dwtLev ds) (s.setLevels l)
  | grid {i : Instr} {gd : RegNum} (hi : gridDest i = some gd) (g : Grid) : CommandEffect s i (s.setGrid gd g)
  | snapshot (ds : RegNum) (t : TableSel) (A B C D E : Grid) :
      CommandEffect s (.inspect ds t) (s.setSnapshot A B C D E)
  | memory {i : Instr} (hi : writesMemory i = true) (ws : List (Nat × Sample)) (hws : ∀ w ∈ ws, w.1 < s.memSamples) :
      CommandEffect s i (s.memWriteAll ws)
  | bitsBlk (gs : RegNum) (x : Sample) : CommandEffect s (.bitsBlk gs) (s.setRes0 x)
  | bitsPln (ds : RegNum) (x : Sample) : CommandEffect s (.bitsPln ds) (s.setRes0 x)
  | psnr (da db : RegNum) (x y : Sample) (b : Bool) : CommandEffect s (.psnr da db) ((s.setResults x y).setMismatch b)
  | ssim (da db : RegNum) (x y : Sample) (b : Bool) : CommandEffect s (.ssim da db) ((s.setResults x y).setMismatch b)
  | artmap (dd da db : RegNum) (ws : List (Nat × Sample)) (hws : ∀ w ∈ ws, w.1 < s.memSamples) (b : Bool) :
      CommandEffect s (.artmap dd da db) ((s.memWriteAll ws).setMismatch b)

/-- The two ways command i takes state s to a next state t (R121, R305): a fault, or an effect and the frame's last writes. -/
def Answers (i : Instr) (s t : State) : Prop :=
  (∃ f, t = s.raise (encode i) f) ∨ ∃ u, CommandEffect s i u ∧ t = u.complete

theorem CommandEffect.answers {i : Instr} {s t u : State} (hu : CommandEffect s i u) (h : completes u = .next t) :
    Answers i s t :=
  .inr ⟨u, hu, completes_cases h⟩

/-- A command is settled by what its effects do once its checks pass. -/
theorem run_answers {i : Instr} {s t : State} {checks : Checks} {effects : Result} (h : run i s checks effects = .next t)
    (heffects : firstFault checks = none → effects = .next t → Answers i s t) : Answers i s t := by
  obtain ⟨f, -, rfl⟩ | ⟨hpass, he⟩ := run_cases h
  · exact .inl ⟨f, rfl⟩
  · exact heffects hpass he

/-! ## The families of commands -/

theorem gridTransform_answers {i : Instr} {gd gs : RegNum} {f : Grid → Grid} {s t : State} (hi : gridDest i = some gd)
    (h : gridTransform i gd gs f s = .next t) : Answers i s t := by
  obtain ⟨-, rfl⟩ | ⟨-, rfl⟩ := gridTransform_cases h
  · exact .inl ⟨_, rfl⟩
  · exact .inr ⟨_, .grid hi _, rfl⟩

theorem tableCommand_answers {i : Instr} {gd gs : RegNum} {sel : TableSel} {f : Sample → Sample → Sample} {s t : State}
    (hi : gridDest i = some gd) (h : tableCommand i gd gs sel f s = .next t) : Answers i s t := by
  obtain ⟨-, rfl⟩ | ⟨-, -, rfl⟩ := tableCommand_cases h
  · exact .inl ⟨_, rfl⟩
  · exact .inr ⟨_, .grid hi _, rfl⟩

theorem waveletCommand_answers {i : Instr} {gd gs : RegNum} {f : Sample → Sample → Sample} {s t : State}
    (hi : gridDest i = some gd) (h : waveletCommand i gd gs f s = .next t) : Answers i s t := by
  obtain ⟨-, rfl⟩ | ⟨-, -, rfl⟩ := waveletCommand_cases h
  · exact .inl ⟨_, rfl⟩
  · exact .inr ⟨_, .grid hi _, rfl⟩

/-- Writing one channel of a legal image stays inside plane memory. -/
theorem CommandEffect.writeChannel {i : Instr} {s : State} {d : Desc} {ch : Nat} (hi : writesMemory i = true)
    (hl : d.legal s.memSamples = true) (hch : ch < d.c.toNat) (v : Nat → Nat → Sample) :
    CommandEffect s i (s.writeChannel d ch v) := by
  refine .memory hi _ fun w hw => ?_
  obtain ⟨p, hp, rfl⟩ := List.mem_map.1 hw
  obtain ⟨hr, hc⟩ := (mem_rowMajor _ _ _).1 hp
  exact Desc.idx_lt_memSamples hl hr hc hch

/-- Channel 0 exists in every legal image. -/
theorem CommandEffect.writePlane {i : Instr} {s : State} {d : Desc} (hi : writesMemory i = true)
    (hl : d.legal s.memSamples = true) (v : Nat → Nat → Sample) : CommandEffect s i (s.writeChannel d 0 v) := by
  obtain ⟨-, -, hc, -⟩ := (Desc.legal_iff _ d).1 hl
  exact .writeChannel hi hl hc v

/-- Writing the pixels of a legal three-channel image stays inside plane memory. -/
theorem CommandEffect.writePixels {i : Instr} {s : State} {d : Desc} (hi : writesMemory i = true)
    (hl : d.legal s.memSamples = true) (h3 : d.c.toNat = 3) (v : Nat → Nat → Nat → Sample) :
    CommandEffect s i (s.writePixels d v) := by
  refine .memory hi _ fun w hw => ?_
  obtain ⟨row, col, ch, hr, hc, hch, rfl⟩ := (mem_pixelWrites d v w).1 hw
  exact Desc.idx_lt_memSamples hl hr hc (h3 ▸ hch)

/-- The writes of a whole legal image stay inside plane memory. -/
theorem imageWrites_inside {n : Nat} {d : Desc} (hl : d.legal n = true) (v : Nat → Sample) :
    ∀ w ∈ (List.range d.samples).map fun k => (d.base.toNat + k, v k), w.1 < n := by
  intro w hw
  obtain ⟨k, hk, rfl⟩ := List.mem_map.1 hw
  obtain ⟨-, -, -, hlim⟩ := (Desc.legal_iff n d).1 hl
  have := List.mem_range.1 hk
  simp only [Desc.limit] at hlim
  omega

/-- The writes of a clipped block of a legal image stay inside plane memory (R124). -/
theorem blockWrites_inside {n : Nat} {d : Desc} (hl : d.legal n = true) {bx by' ch : Nat} (hch : ch < d.c.toNat)
    (g : Grid) : ∀ w ∈ blockWrites d bx by' ch g, w.1 < n := by
  intro w hw
  obtain ⟨p, hp, rfl⟩ := List.mem_map.1 hw
  obtain ⟨-, hin⟩ := List.mem_filter.1 hp
  simp only [blockInside, Bool.and_eq_true, decide_eq_true_eq] at hin
  exact Desc.idx_lt_memSamples hl hin.1 hin.2 hch

/-- The channel check (R123, R128, R129): `A2` names a channel of the image. -/
theorem channel_of_needChannel {s : State} {d : Desc} (h : (needChannel s d).1 = false) : s.a2.toNat < d.c.toNat := by
  simpa [needChannel] using h

/-- The shape check of the colour converters: the destination has three channels. -/
theorem three_of_cscChecks {s : State} {dd ds : RegNum} (h : firstFault (cscChecks s dd ds) = none) :
    (s.desc dd).c.toNat = 3 := by
  simp only [cscChecks, needShape, firstFault_cons_eq_none, Bool.not_eq_false', Bool.and_eq_true,
    beq_iff_eq] at h
  obtain ⟨-, -, ⟨⟨-, h3⟩, -⟩, -⟩ := h
  rw [h3]
  rfl

theorem csc_answers {i : Instr} {dd ds : RegNum} {f : Sample → Sample → Sample → Sample × Sample × Sample} {s t : State}
    (hi : writesMemory i = true) (h : run i s (cscChecks s dd ds) (cscEffects s dd ds f) = .next t) : Answers i s t := by
  refine run_answers h fun hpass he => ?_
  obtain ⟨hl, -, v, rfl⟩ := cscEffects_cases he
  exact .inr ⟨_, .writePixels hi hl (three_of_cscChecks hpass) v, rfl⟩

theorem dwt_answers {i : Instr} {dd ds : RegNum} {checks : Checks} {f : Nat → Nat → Nat → Plane Sample → Plane Sample}
    {s t : State} (hi : writesMemory i = true) (h : run i s checks (dwtEffects s dd ds f) = .next t) : Answers i s t := by
  refine run_answers h fun _ he => ?_
  obtain ⟨hl, -, v, rfl⟩ := dwtEffects_cases he
  exact .inr ⟨_, .writePlane hi hl v, rfl⟩

theorem waveletPlane_answers {i : Instr} {dd ds : RegNum} {checks : Checks} {f : Sample → Sample → Sample} {s t : State}
    (hi : writesMemory i = true) (h : run i s checks (waveletPlaneEffects s dd ds f) = .next t) : Answers i s t := by
  refine run_answers h fun _ he => ?_
  obtain ⟨hl, -, v, rfl⟩ := waveletPlaneEffects_cases he
  exact .inr ⟨_, .writePlane hi hl v, rfl⟩

/-- A command that fills channel 0 of the first image it reaches. -/
theorem planeWrite_answers {i : Instr} {s t : State} {checks : Checks} {d : Desc} {images : List Desc}
    {v : Nat → Nat → Sample} (hi : writesMemory i = true)
    (h : run i s checks (reaching s (d :: images) (completes (s.writeChannel d 0 v))) = .next t) : Answers i s t := by
  refine run_answers h fun _ he => ?_
  obtain ⟨hl, he⟩ := reaching_head he
  exact (CommandEffect.writePlane hi hl v).answers he

/-! ## The commands with checks or effects of their own -/

theorem nop_answers {s t : State} (h : execNop s = .next t) : Answers .nop s t := by
  unfold execNop at h
  exact run_answers h fun _ he => CommandEffect.nop.answers he

theorem gzero_answers {gd : RegNum} {s t : State} (h : execGzero gd s = .next t) : Answers (.gzero gd) s t := by
  unfold execGzero at h
  exact run_answers h fun _ he => (CommandEffect.grid rfl _).answers he

theorem config_answers {s t : State} (h : execConfig s = .next t) : Answers .config s t := by
  refine run_answers h fun hpass he => ?_
  simp only [firstFault_cons_eq_none, beq_eq_false_iff_ne] at hpass
  obtain ⟨hq, hm, -⟩ := hpass
  exact (CommandEffect.config hq hm).answers he

theorem dset_answers {dd : RegNum} {s t : State} (h : execDset dd s = .next t) : Answers (.dset dd) s t := by
  refine run_answers h fun hpass he => ?_
  simp only [firstFault_cons_eq_none] at hpass
  obtain ⟨hd, hb, -⟩ := hpass
  exact (CommandEffect.dset dd hd hb).answers he

theorem gst_answers {dd gs : RegNum} {s t : State} (h : execGst dd gs s = .next t) : Answers (.gst dd gs) s t := by
  refine run_answers h fun hpass he => ?_
  simp only [firstFault_cons_eq_none] at hpass
  obtain ⟨-, -, hch, -⟩ := hpass
  obtain ⟨hl, he⟩ := reaching_head he
  exact (CommandEffect.memory rfl _ (blockWrites_inside hl (channel_of_needChannel hch) _)).answers he

theorem merge_answers {dd ds : RegNum} {s t : State} (h : execMerge dd ds s = .next t) : Answers (.merge dd ds) s t := by
  refine run_answers h fun hpass he => ?_
  simp only [firstFault_cons_eq_none] at hpass
  obtain ⟨-, -, -, hch, -⟩ := hpass
  obtain ⟨hl, he⟩ := reaching_head he
  exact (CommandEffect.writeChannel rfl hl (channel_of_needChannel hch) _).answers he

theorem copy_answers {dd ds : RegNum} {s t : State} (h : execCopy dd ds s = .next t) : Answers (.copy dd ds) s t := by
  refine run_answers h fun _ he => ?_
  obtain ⟨hl, he⟩ := reaching_head he
  exact (CommandEffect.memory rfl _ (imageWrites_inside hl _)).answers he

theorem inspect_answers {ds : RegNum} {sel : TableSel} {s t : State} (h : execInspect ds sel s = .next t) :
    Answers (.inspect ds sel) s t := by
  refine run_answers h fun _ he => ?_
  split at he
  · exact (CommandEffect.snapshot ds sel _ _ _ _ _).answers he
  · obtain ⟨-, he⟩ := reaching_cases he
    exact (CommandEffect.snapshot ds sel _ _ _ _ _).answers he

theorem psnr_answers {da db : RegNum} {s t : State} (h : execPsnr da db s = .next t) : Answers (.psnr da db) s t := by
  refine run_answers h fun _ he => ?_
  split at he
  · obtain ⟨-, he⟩ := reaching_cases he
    exact (CommandEffect.psnr da db _ _ _).answers he
  · exact (CommandEffect.psnr da db _ _ _).answers he

theorem ssim_answers {da db : RegNum} {s t : State} (h : execSsim da db s = .next t) : Answers (.ssim da db) s t := by
  refine run_answers h fun _ he => ?_
  split at he
  · obtain ⟨-, he⟩ := reaching_cases he
    exact (CommandEffect.ssim da db _ _ _).answers he
  · exact (CommandEffect.ssim da db _ _ _).answers he

theorem artmap_answers {dd da db : RegNum} {s t : State} (h : execArtmap dd da db s = .next t) :
    Answers (.artmap dd da db) s t := by
  refine run_answers h fun _ he => ?_
  split at he
  · obtain ⟨hl, he⟩ := reaching_head he
    exact (CommandEffect.artmap dd da db _ (imageWrites_inside hl _) _).answers he
  · exact (CommandEffect.artmap dd da db [] (by simp) _).answers he

/-! ## All commands -/

/-- Every command that answers raises a fault, or completes after one of the effects of `CommandEffect`. -/
theorem exec_cases {i : Instr} {s t : State} (h : exec i s = .next t) : Answers i s t := by
  cases i with
  | nop => exact nop_answers h
  | config => exact config_answers h
  | dset => exact dset_answers h
  | gld => exact run_answers h fun _ he => (CommandEffect.grid rfl _).answers (reaching_cases he).2
  | gst => exact gst_answers h
  | gmov => exact run_answers h fun _ he => (CommandEffect.grid rfl _).answers he
  | gzero => exact gzero_answers h
  | gqt => exact run_answers h fun _ he => (CommandEffect.grid rfl _).answers he
  | split => exact planeWrite_answers rfl h
  | merge => exact merge_answers h
  | copy => exact copy_answers h
  | cscF => exact csc_answers rfl h
  | cscI => exact csc_answers rfl h
  | dctF => exact gridTransform_answers rfl h
  | dctI => exact gridTransform_answers rfl h
  | haar8F => exact gridTransform_answers rfl h
  | haar8I => exact gridTransform_answers rfl h
  | dwtLev ds => exact run_answers h fun _ he => (CommandEffect.dwtLev ds _).answers he
  | dwtF => exact dwt_answers rfl h
  | dwtI => exact dwt_answers rfl h
  | qBlk => exact tableCommand_answers rfl h
  | dqBlk => exact tableCommand_answers rfl h
  | qwBlk => exact waveletCommand_answers rfl h
  | dqwBlk => exact waveletCommand_answers rfl h
  | qwPln => exact waveletPlane_answers rfl h
  | dqwPln => exact waveletPlane_answers rfl h
  | bitsBlk gs => exact run_answers h fun _ he => (CommandEffect.bitsBlk gs _).answers he
  | bitsPln ds => exact run_answers h fun _ he => (CommandEffect.bitsPln ds _).answers (reaching_cases he).2
  | cdown => exact planeWrite_answers rfl h
  | cup => exact planeWrite_answers rfl h
  | procPln => exact planeWrite_answers rfl h
  | inspect => exact inspect_answers h
  | psnr => exact psnr_answers h
  | ssim => exact ssim_answers h
  | artmap => exact artmap_answers h

end Sys2Proof.Machine
end

section
/-! PROOF. The host's side of a step: what a register write can change (R25), and which step a host action is. -/

namespace Sys2Proof.Machine

/-- A register write that is accepted resets the block, or changes host registers only (R25, R35, R37, R38, R41 to R43). -/
theorem regWrite_cases {s u : State} {i : BitVec 8} {v : Container} (h : s.regWrite i v = some u) :
    (i = 0x05#8 ∧ v.getLsbD 0 = true ∧ u = s.doReset)
    ∨ ∃ cfgstage quality gain levels a0 a1 a2 a3,
      u = { s with
        cfgstage := cfgstage, quality := quality, gain := gain, levels := levels, a0 := a0, a1 := a1, a2 := a2, a3 := a3 } := by
  unfold State.regWrite at h
  split at h
  case h_1 hi =>
    cases hv : v.getLsbD 0
    · rw [hv] at h
      exact .inr ⟨_, _, _, _, _, _, _, _, (Option.some.inj h).symm⟩
    · rw [hv] at h
      exact .inl ⟨BitVec.eq_of_toNat_eq hi, rfl, (Option.some.inj h).symm⟩
  case h_10 => exact absurd h (by simp)
  all_goals exact .inr ⟨_, _, _, _, _, _, _, _, (Option.some.inj h).symm⟩

/-- A step that reads a register answers its container or the error response (R25). -/
theorem step_regRead {s : State} {i : BitVec 8} {rest : List HostAction} (h : s.script = .regRead i :: rest) :
    step s = .next (State.answer { s with script := rest } (s.regRead i)) := by
  unfold step takeAction
  rw [h]
  rfl

/-- A step that writes a register other than `CMD` takes the written state or gives the error response (R25). -/
theorem step_regWrite {s : State} {i : BitVec 8} {v : Container} {rest : List HostAction}
    (h : s.script = .regWrite i v :: rest) (hi : i ≠ cmdIndex) :
    step s = .next (State.accept { s with script := rest } (State.regWrite { s with script := rest } i v)) := by
  unfold step takeAction
  rw [h]
  exact if_neg hi

/-- A step that writes `CMD` issues the low 32 bits of the container (R25, R34). -/
theorem step_cmdWrite {s : State} {v : Container} {rest : List HostAction} (h : s.script = .regWrite cmdIndex v :: rest) :
    step s = issue (v.setWidth 32) { s with script := rest, response := .done } := by
  unfold step takeAction
  rw [h]
  rfl

/-- A halted block ignores a word (R306). -/
theorem issue_of_fault {w : Word} {s : State} (h : s.status.fault = true) : issue w s = .next s := if_pos h

/-- A block that is not halted runs the command it decodes (R121). -/
theorem issue_of_decode {w : Word} {s : State} {i : Instr} (hf : s.status.fault = false) (hd : decode w = .ok i) :
    issue w s = exec i s.begin := by
  simp [issue, hf, hd]

/-! ## Which indices have a register (R25) -/

/-- The descriptor fields stand at 0x40 + 4n + k (R46). -/
theorem regRead_descField (s : State) (n : RegNum) {a k : Nat} (hk : k < 4) (ha : a = 0x40 + 4 * n.val + k) :
    s.regRead (BitVec.ofNat 8 a) = some (s.descField n k) := by
  have hi : (BitVec.ofNat 8 a).toNat = 0x40 + 4 * n.val + k := by
    rw [BitVec.toNat_ofNat]
    omega
  have hn : Fin.ofNat 8 ((0x40 + 4 * n.val + k - 0x40) / 4) = n := by
    apply Fin.ext
    simp only [Fin.ofNat]
    omega
  have hm : (0x40 + 4 * n.val + k - 0x40) % 4 = k := by omega
  unfold State.regRead
  rw [hi]
  split
  case h_21 => rw [if_pos (by omega), hn, hm]
  all_goals omega

/-- Indices without a readable register. -/
theorem regRead_eq_none (s : State) {i : BitVec 8}
    (h : i.toNat = 0x04 ∨ i.toNat = 0x05 ∨ (0x14 ≤ i.toNat ∧ i.toNat ≤ 0x17) ∨ (0x1A ≤ i.toNat ∧ i.toNat ≤ 0x3F)
      ∨ 0x60 ≤ i.toNat) : s.regRead i = none := by
  have hdesc : ¬ (0x40 ≤ i.toNat ∧ i.toNat ≤ 0x5F) := by omega
  unfold State.regRead
  split
  case h_21 => rw [if_neg hdesc]
  all_goals omega

/-- Indices without a writable register. -/
theorem regWrite_eq_none (s : State) {i : BitVec 8} (v : Container)
    (h : i.toNat ≤ 0x03 ∨ i.toNat = 0x06 ∨ i.toNat = 0x07 ∨ (0x0A ≤ i.toNat ∧ i.toNat ≤ 0x0D) ∨ 0x14 ≤ i.toNat) :
    s.regWrite i v = none := by
  unfold State.regWrite
  split
  case h_10 => rfl
  all_goals omega

/-- `STATUS` in its 64-bit container has its fields in the places of R31. -/
theorem status_container (st : Status) :
    st.word.setWidth 64 = 0#56 ++ st.fcode ++ BitVec.ofBool st.mismatch ++ BitVec.ofBool st.cfgv
      ++ BitVec.ofBool st.fault ++ BitVec.ofBool st.busy := by
  apply BitVec.eq_of_getLsbD_eq
  intro k hk
  simp only [Status.word, BitVec.getLsbD_setWidth, BitVec.getLsbD_append, BitVec.getLsbD_zero, hk, decide_true,
    Bool.true_and]

/-- Every descriptor is zero right after reset (R48). -/
theorem reset_desc (n : RegNum) : State.reset.desc n = zeroDesc := by
  simp [State.desc, State.reset]

end Sys2Proof.Machine
end

section
/-! PROOF. What `CONFIG` leaves in each field that it does not derive from the quality (R203). -/

namespace Sys2Proof.Machine

@[simp] theorem State.configured_grids (s : State) : s.configured.grids = s.grids := by simp only [State.configured]
@[simp] theorem State.configured_gvalid (s : State) : s.configured.gvalid = s.gvalid := by simp only [State.configured]
@[simp] theorem State.configured_descs (s : State) : s.configured.descs = s.descs := by simp only [State.configured]
@[simp] theorem State.configured_dvalid (s : State) : s.configured.dvalid = s.dvalid := by simp only [State.configured]
@[simp] theorem State.configured_fcmd (s : State) : s.configured.fcmd = s.fcmd := by simp only [State.configured]
@[simp] theorem State.configured_cmdcnt (s : State) : s.configured.cmdcnt = s.cmdcnt := by simp only [State.configured]
@[simp] theorem State.configured_cfgstage (s : State) : s.configured.cfgstage = s.cfgstage := by simp only [State.configured]
@[simp] theorem State.configured_quality (s : State) : s.configured.quality = s.quality := by simp only [State.configured]
@[simp] theorem State.configured_gain (s : State) : s.configured.gain = s.gain := by simp only [State.configured]
@[simp] theorem State.configured_levels (s : State) : s.configured.levels = s.levels := by simp only [State.configured]
@[simp] theorem State.configured_a0 (s : State) : s.configured.a0 = s.a0 := by simp only [State.configured]
@[simp] theorem State.configured_a1 (s : State) : s.configured.a1 = s.a1 := by simp only [State.configured]
@[simp] theorem State.configured_a2 (s : State) : s.configured.a2 = s.a2 := by simp only [State.configured]
@[simp] theorem State.configured_a3 (s : State) : s.configured.a3 = s.a3 := by simp only [State.configured]
@[simp] theorem State.configured_res0 (s : State) : s.configured.res0 = s.res0 := by simp only [State.configured]
@[simp] theorem State.configured_res1 (s : State) : s.configured.res1 = s.res1 := by simp only [State.configured]
@[simp] theorem State.configured_mem (s : State) : s.configured.mem = s.mem := by simp only [State.configured]
@[simp] theorem State.configured_memTop (s : State) : s.configured.memTop = s.memTop := by simp only [State.configured]
@[simp] theorem State.configured_status (s : State) : s.configured.status = { s.status with cfgv := true } := by
  simp only [State.configured]

end Sys2Proof.Machine
end

section
/-! PROOF. The invariant of the states between two host actions (R23, R24, R31, R32, R60, R68): what each part of a step does
to each of its clauses. -/

namespace Sys2Proof.Machine

/-! ## Memory writes (R60, R68) -/

/-- Writes inside plane memory keep it canonical and inside. -/
theorem State.memoryOk_memWriteAll {s : State} (h : s.memoryOk) {ws : List (Nat × Sample)}
    (hws : ∀ w ∈ ws, w.1 < s.memSamples) : (s.memWriteAll ws).memoryOk := by
  obtain ⟨hwf, hin⟩ := h
  refine ⟨Memory.wf_insertAll ws s.mem hwf, fun cell hcell => ?_⟩
  exact (Memory.mem_insertAll ws s.mem cell hcell).elim (hws cell) (hin cell)

theorem State.memoryOk_memWrite {s : State} (h : s.memoryOk) {a : Nat} (ha : a < s.memSamples) (v : Sample) :
    (s.memWrite a v).memoryOk :=
  State.memoryOk_memWriteAll (ws := [(a, v)]) h (by simpa using ha)

/-! ## The record `DSET` makes (R23, R122) -/

/-- A record that passes the checks of R122 satisfies R23. -/
theorem State.stagedDesc_legal {s : State} (hd : s.badDims = false) (hb : s.outOfBounds = false) :
    s.stagedDesc.legal s.memSamples = true := by
  simp only [State.badDims, Bool.or_eq_false_iff, beq_eq_false_iff_ne, decide_eq_false_iff_not, not_lt] at hd
  obtain ⟨⟨⟨⟨⟨h1, h2⟩, h3⟩, l1⟩, l2⟩, l3⟩ := hd
  have e1 : s.stagedDesc.w.toNat = s.a1.toNat := Nat.mod_eq_of_lt (by omega)
  have e2 : s.stagedDesc.h.toNat = s.a2.toNat := Nat.mod_eq_of_lt (by omega)
  have e3 : s.stagedDesc.c.toNat = s.a3.toNat := Nat.mod_eq_of_lt (by omega)
  have hb' : s.a0.toNat + s.a1.toNat * s.a2.toNat * s.a3.toNat ≤ s.memSamples := by simpa [State.outOfBounds] using hb
  rw [Desc.legal_iff, Desc.limit, Desc.samples, e1, e2, e3]
  exact ⟨by bv_omega, by bv_omega, by bv_omega, hb'⟩

theorem State.descriptorsOk_setDesc {s : State} (h : s.descriptorsOk) (n : RegNum) {d : Desc}
    (hd : d.legal s.memSamples = true) : (s.setDesc n d).descriptorsOk := by
  intro m
  by_cases hm : m = n
  · subst hm
    simpa [State.memSamples] using hd
  · rw [State.descValid_setDesc, decide_eq_false hm, Bool.or_false, State.desc_setDesc_other s d hm]
    exact h m

/-! ## The configuration (R24, R203) -/

/-- `CONFIG` with a quality and a mode that pass its checks leaves a legal configuration. -/
theorem State.configurationOk_configured {s : State} (hq : s.badQuality = false) (hm : cfgChroma s.cfgstage ≠ 3) :
    s.configured.configurationOk := by
  simp only [State.badQuality, Bool.or_eq_false_iff, Bool.not_eq_false'] at hq
  obtain ⟨hfin, hle⟩ := hq
  obtain ⟨hpos, h0⟩ := Binary64.positive_of_not_le hfin hle
  have hscale := Binary64.isNaN_scaleOf hfin h0
  refine ⟨fun t i j hi hj => ?_, hfin, hpos, hm⟩
  cases t
  · exact one_le_deriveTable .luma hscale hi hj
  · exact one_le_deriveTable .chroma hscale hi hj

theorem State.configured_memoryOk (s : State) (h : s.memoryOk) : s.configured.memoryOk := by
  simpa [State.memoryOk, State.memSamples] using h

theorem State.configured_descriptorsOk (s : State) (h : s.descriptorsOk) : s.configured.descriptorsOk := by
  simpa [State.descriptorsOk, State.descValid, State.desc, State.memSamples] using h

theorem State.configured_faultFieldsOk (s : State) (h : s.faultFieldsOk) : s.configured.faultFieldsOk := by
  simpa [State.faultFieldsOk] using h

/-! ## The fault fields (R31, R32, R301) -/

theorem FaultCode.code_bounds (f : FaultCode) : 1 ≤ f.code.toNat ∧ f.code.toNat ≤ 9 := by
  cases f <;> decide

/-- `raise` leaves the fault fields in agreement. -/
theorem State.faultFieldsOk_raise (s : State) (w : Word) (f : FaultCode) : (s.raise w f).faultFieldsOk :=
  f.code_bounds

/-! ## Commands -/

section
variable {s u : State} {i : Instr}

theorem CommandEffect.memoryOk (hu : CommandEffect s i u) (h : s.memoryOk) : u.memoryOk := by
  cases hu with
  | config => exact s.configured_memoryOk h
  | memory _ ws hws => exact State.memoryOk_memWriteAll h hws
  | artmap _ _ _ ws hws => exact State.memoryOk_memWriteAll h hws
  | _ => exact h

theorem CommandEffect.descriptorsOk (hu : CommandEffect s i u) (h : s.descriptorsOk) : u.descriptorsOk := by
  cases hu with
  | config => exact s.configured_descriptorsOk h
  | dset dd hd hb => exact State.descriptorsOk_setDesc h dd (State.stagedDesc_legal hd hb)
  | _ => exact h

theorem CommandEffect.configurationOk (hu : CommandEffect s i u) (h : s.configurationOk) : u.configurationOk := by
  cases hu with
  | config hq hm => exact State.configurationOk_configured hq hm
  | _ => exact h

/-- No effect touches the fault fields: only the frame's `raise` does (R31, R32). -/
theorem CommandEffect.faultFieldsOk (hu : CommandEffect s i u) (h : s.faultFieldsOk) : u.faultFieldsOk := by
  cases hu with
  | config => exact s.configured_faultFieldsOk h
  | _ => exact h

end

/-- A command ends with the invariant, whether it faults or completes; it begins with all clauses of it but BUSY. -/
theorem inv_of_exec {i : Instr} {s t : State} (h : exec i s = .next t) (hm : s.memoryOk) (hd : s.descriptorsOk)
    (hf : s.faultFieldsOk) (hc : s.configurationOk) : t.Inv := by
  obtain ⟨f, rfl⟩ | ⟨u, hu, rfl⟩ := exec_cases h
  · exact ⟨hm, hd, s.faultFieldsOk_raise _ f, hc, rfl⟩
  · exact ⟨hu.memoryOk hm, hu.descriptorsOk hd, hu.faultFieldsOk hf, hu.configurationOk hc, rfl⟩

/-! ## Host actions -/

section
variable {s t : State}

theorem State.Inv.respond (h : s.Inv) (r : Response) : (s.respond r).Inv :=
  ⟨h.memory, h.descriptors, h.faultFields, h.configuration, h.idle⟩

theorem State.Inv.doReset (h : s.Inv) : s.doReset.Inv where
  memory := h.memory
  descriptors := fun n => by
    have hv : s.doReset.descValid n = false := BitVec.getLsbD_zero
    rw [hv]
    exact reset_desc n
  faultFields := ⟨rfl, rfl⟩
  configuration := ⟨rfl, rfl, rfl, rfl⟩
  idle := rfl

theorem State.Inv.regWrite (h : s.Inv) {i : BitVec 8} {v : Container} (hw : s.regWrite i v = some t) : t.Inv := by
  obtain ⟨-, -, rfl⟩ | ⟨_, _, _, _, _, _, _, _, rfl⟩ := regWrite_cases hw
  · exact h.doReset
  · exact ⟨h.memory, h.descriptors, h.faultFields, h.configuration, h.idle⟩

theorem State.Inv.issue (h : s.Inv) {w : Word} (hi : issue w s = .next t) : t.Inv := by
  obtain ⟨-, rfl⟩ | ⟨-, e, -, rfl⟩ | ⟨-, i, -, he⟩ := issue_cases hi
  · exact h
  · exact ⟨h.memory, h.descriptors, State.faultFieldsOk_raise _ _ _, h.configuration, rfl⟩
  · exact inv_of_exec he h.memory h.descriptors h.faultFields h.configuration

theorem State.Inv.act (h : s.Inv) {a : HostAction} (ha : act a s = .next t) : t.Inv := by
  obtain ⟨v, -, hi⟩ | ⟨r, rfl⟩ | ⟨i, v, u, -, -, hw, rfl⟩ | ⟨b, v, -, hb, rfl⟩ | ⟨-, rfl⟩ := act_cases ha
  · exact (h.respond .done).issue hi
  · exact h.respond r
  · exact (h.regWrite hw).respond .done
  · exact ⟨State.memoryOk_memWrite h.memory hb v, h.descriptors, h.faultFields, h.configuration, h.idle⟩
  · exact h.doReset.respond .done

theorem State.Inv.step (h : s.Inv) (hs : step s = .next t) : t.Inv := by
  obtain ⟨-, rfl⟩ | ⟨a, rest, -, ha⟩ := step_cases hs
  · exact h
  · have hrest : State.Inv { s with script := rest } :=
      ⟨h.memory, h.descriptors, h.faultFields, h.configuration, h.idle⟩
    exact hrest.act ha

end

/-- Settles O9: the invariant holds of whatever state a host action, and the command it may issue, leaves. -/
theorem everyStepKeepsTheInvariant : Obligations.EveryStepKeepsTheInvariant :=
  fun _ _ h hs => h.step hs

end Sys2Proof.Machine
end

section
/-! PROOF. What commands leave alone (R23, R31, R36 to R44), read off the effects a completed command can have. -/

namespace Sys2Proof.Machine

/-! ## The active configuration (R39, R40, R346) -/

/-- The active configuration, the scales, both tables and CFGV of t are those of s. -/
def SameConfiguration (s t : State) : Prop :=
  t.cfg = s.cfg ∧ t.qactive = s.qactive ∧ t.scale = s.scale ∧ t.basestep = s.basestep ∧ t.qtLuma = s.qtLuma
    ∧ t.qtChroma = s.qtChroma ∧ t.status.cfgv = s.status.cfgv

theorem SameConfiguration.refl (s : State) : SameConfiguration s s := ⟨rfl, rfl, rfl, rfl, rfl, rfl, rfl⟩

theorem exec_sameConfiguration {i : Instr} {s t : State} (h : exec i s = .next t) (hi : i ≠ .config) :
    SameConfiguration s t := by
  obtain ⟨f, rfl⟩ | ⟨u, hu, rfl⟩ := exec_cases h
  · exact .refl s
  · cases hu with
    | config => exact absurd rfl hi
    | _ => exact .refl s

theorem issue_sameConfiguration {w : Word} {s t : State} (h : issue w s = .next t) (hw : decode w ≠ .ok .config) :
    SameConfiguration s t := by
  obtain ⟨-, rfl⟩ | ⟨-, e, -, rfl⟩ | ⟨-, i, hd, he⟩ := issue_cases h
  · exact .refl _
  · exact .refl s
  · exact exec_sameConfiguration (s := s.begin) he fun hc => hw (hc ▸ hd)

/-- Settles O14: of the host's actions only an issued `CONFIG` and the two resets reach these registers. -/
theorem onlyConfigChangesTheActiveConfiguration : Obligations.OnlyConfigChangesTheActiveConfiguration := by
  intro s t h
  obtain ⟨-, rfl⟩ | ⟨a, rest, hs, ha⟩ := step_cases h
  · exact .inl (SameConfiguration.refl _)
  obtain ⟨v, rfl, hi⟩ | ⟨r, rfl⟩ | ⟨i, v, u, rfl, -, hw, rfl⟩ | ⟨b, v, -, -, rfl⟩ | ⟨rfl, -⟩ := act_cases ha
  · by_cases hd : decode (v.setWidth 32) = .ok .config
    · exact .inr (.inl ⟨v, rest, hs, hd⟩)
    · have hsame := issue_sameConfiguration hi hd
      exact .inl hsame
  · exact .inl (SameConfiguration.refl s)
  · obtain ⟨rfl, hv, -⟩ | ⟨_, _, _, _, _, _, _, _, rfl⟩ := regWrite_cases hw
    · exact .inr (.inr (.inr ⟨v, rest, hs, hv⟩))
    · exact .inl (SameConfiguration.refl s)
  · exact .inl (SameConfiguration.refl s)
  · exact .inr (.inr (.inl ⟨rest, hs⟩))

/-! ## The host's registers and the descriptors (R23, R37, R38, R41 to R43) -/

/-- Settles O15: among the effects only `DSET`'s reaches the descriptors, only `DWT.LEV`'s reaches LEVELS, and none the rest. -/
theorem commandsLeaveHostRegisters : Obligations.CommandsLeaveHostRegisters := by
  intro i s t h
  obtain ⟨f, rfl⟩ | ⟨u, hu, rfl⟩ := exec_cases h
  · exact ⟨rfl, rfl, rfl, rfl, rfl, rfl, rfl, fun _ => rfl, fun _ => ⟨rfl, rfl⟩⟩
  · cases hu with
    | config => simp
    | dset dd => exact ⟨rfl, rfl, rfl, rfl, rfl, rfl, rfl, fun _ => rfl, fun hi => absurd rfl (hi dd)⟩
    | dwtLev ds => exact ⟨rfl, rfl, rfl, rfl, rfl, rfl, rfl, fun hi => absurd rfl (hi ds), fun _ => ⟨rfl, rfl⟩⟩
    | _ => exact ⟨rfl, rfl, rfl, rfl, rfl, rfl, rfl, fun _ => rfl, fun _ => ⟨rfl, rfl⟩⟩

/-! ## Results (R31, R44) -/

section
variable {i : Instr} {s t : State}

theorem exec_mismatch (h : exec i s = .next t) (hp : ∀ da db, i ≠ .psnr da db) (hs : ∀ da db, i ≠ .ssim da db)
    (ha : ∀ dd da db, i ≠ .artmap dd da db) : t.status.mismatch = s.status.mismatch := by
  obtain ⟨f, rfl⟩ | ⟨u, hu, rfl⟩ := exec_cases h
  · rfl
  · cases hu with
    | config => simp
    | psnr da db => exact absurd rfl (hp da db)
    | ssim da db => exact absurd rfl (hs da db)
    | artmap dd da db => exact absurd rfl (ha dd da db)
    | _ => rfl

theorem exec_res0 (h : exec i s = .next t) (hp : ∀ da db, i ≠ .psnr da db) (hs : ∀ da db, i ≠ .ssim da db)
    (hb : ∀ gs, i ≠ .bitsBlk gs) (hl : ∀ ds, i ≠ .bitsPln ds) : t.res0 = s.res0 := by
  obtain ⟨f, rfl⟩ | ⟨u, hu, rfl⟩ := exec_cases h
  · rfl
  · cases hu with
    | config => simp
    | psnr da db => exact absurd rfl (hp da db)
    | ssim da db => exact absurd rfl (hs da db)
    | bitsBlk gs => exact absurd rfl (hb gs)
    | bitsPln ds => exact absurd rfl (hl ds)
    | _ => rfl

theorem exec_res1 (h : exec i s = .next t) (hp : ∀ da db, i ≠ .psnr da db) (hs : ∀ da db, i ≠ .ssim da db) :
    t.res1 = s.res1 := by
  obtain ⟨f, rfl⟩ | ⟨u, hu, rfl⟩ := exec_cases h
  · rfl
  · cases hu with
    | config => simp
    | psnr da db => exact absurd rfl (hp da db)
    | ssim da db => exact absurd rfl (hs da db)
    | _ => rfl

end

/-- Settles O16: the effects that reach a result are those of the metric commands and of the bit estimators. -/
theorem onlyMetricCommandsWriteResults : Obligations.OnlyMetricCommandsWriteResults := by
  intro i s t h
  refine ⟨?_, ?_, ?_⟩
  · split
    case h_4 hp hs ha => exact exec_mismatch h hp hs ha
    all_goals trivial
  · split
    case h_5 hp hs hb hl => exact exec_res0 h hp hs hb hl
    all_goals trivial
  · split
    case h_3 hp hs => exact exec_res1 h hp hs
    all_goals trivial

/-! ## Valid bits (R36) -/

theorem State.gridValid_setGrid_of_valid {s : State} {n : RegNum} (h : s.gridValid n = true) (m : RegNum) (g : Grid) :
    (s.setGrid m g).gridValid n = true := by
  rw [State.gridValid_setGrid, h, Bool.true_or]

theorem State.gridValid_setSnapshot_of_valid {s : State} {n : RegNum} (h : s.gridValid n = true) (A B C D E : Grid) :
    (s.setSnapshot A B C D E).gridValid n = true := by
  simp [State.setSnapshot, h]

/-- Settles O18: the effects on the valid bits only set bits. -/
theorem commandsKeepValidBits : Obligations.CommandsKeepValidBits := by
  intro i s t n h
  obtain ⟨f, rfl⟩ | ⟨u, hu, rfl⟩ := exec_cases h
  · exact ⟨id, id⟩
  · cases hu with
    | config => simp [State.gridValid, State.descValid]
    | grid _ g => exact ⟨fun hv => State.gridValid_setGrid_of_valid hv _ g, id⟩
    | snapshot _ _ A B C D E => exact ⟨fun hv => State.gridValid_setSnapshot_of_valid hv A B C D E, id⟩
    | dset dd =>
      refine ⟨id, fun hv => ?_⟩
      change (s.setDesc dd s.stagedDesc).descValid n = true
      rw [State.descValid_setDesc, hv, Bool.true_or]
    | _ => exact ⟨id, id⟩

end Sys2Proof.Machine
end

section
/-! PROOF. The frame of a step that issues a command, the register port and the reset values (R25, R30 to R48). -/

namespace Sys2Proof.Machine

/-- Settles O5. -/
theorem stepRunsTheDecodedCommand : Obligations.StepRunsTheDecodedCommand := by
  intro s v rest i hs hf hd
  exact (step_cmdWrite hs).trans (issue_of_decode hf hd)

/-- Settles O7. -/
theorem haltedBlockIgnoresCommands : Obligations.HaltedBlockIgnoresCommands := by
  intro s v rest hs hf
  exact (step_cmdWrite hs).trans (issue_of_fault hf)

/-- Settles O19: the step by `step_regRead`, the fields of a descriptor by `regRead_descField`, the rest by the table's rows. -/
theorem registerReadsGiveContainers : Obligations.RegisterReadsGiveContainers := by
  intro s i rest
  refine ⟨fun hs => ?_, rfl, congrArg some (status_container s.status), rfl, rfl, rfl, rfl, rfl, rfl, rfl, rfl, rfl, rfl,
    rfl, rfl, rfl, rfl, rfl, rfl, rfl, rfl, fun n => ⟨fun hv => ?_, fun hv k hk => ?_⟩⟩
  · rw [step_regRead hs]
    cases s.regRead i <;> rfl
  · have field {a k : Nat} (hk : k < 4) (ha : a = 0x40 + 4 * n.val + k) :=
      (regRead_descField s n hk ha).trans (congrArg some (if_pos hv))
    exact ⟨field (k := 0) (by decide) rfl, field (k := 1) (by decide) (by omega), field (k := 2) (by decide) (by omega),
      field (k := 3) (by decide) (by omega)⟩
  · exact (regRead_descField s n hk rfl).trans (congrArg some (if_neg (by simp [hv])))

/-- Settles O20. -/
theorem registerWritesKeepNamedBits : Obligations.RegisterWritesKeepNamedBits := by
  intro s v rest u
  exact ⟨fun h => step_regWrite h (by decide), fun h => step_regWrite h (by decide), fun h => step_regWrite h (by decide),
    fun h => step_regWrite h (by decide), fun h => step_regWrite h (by decide), fun h => step_regWrite h (by decide),
    fun h => step_regWrite h (by decide), fun h => step_regWrite h (by decide)⟩

/-- Settles O21. -/
theorem registerErrorsChangeNothing : Obligations.RegisterErrorsChangeNothing := by
  intro s i v rest
  refine ⟨fun hs hi => ?_, fun hs hi => ?_⟩
  · rw [step_regRead hs, regRead_eq_none s hi]
    rfl
  · have hcmd : i ≠ cmdIndex := by
      rintro rfl
      simp [cmdIndex] at hi
    rw [step_regWrite hs hcmd, regWrite_eq_none _ v hi]
    rfl

/-- Settles O24. -/
theorem resetStateValues : Obligations.ResetStateValues :=
  ⟨by decide, rfl, rfl, rfl, rfl, rfl, rfl, rfl, rfl, rfl, rfl, rfl, rfl, rfl, rfl, rfl, rfl, rfl, rfl, reset_desc⟩

end Sys2Proof.Machine
end

section
/-! PROOF. The memory port (R61, R62), and the commands that neither read nor write plane memory (R77). -/

namespace Sys2Proof.Machine

/-! ## The memory port -/

/-- A step that reads plane memory answers the sample or the error response (R61). -/
theorem step_memRead {s : State} {a : BitVec 32} {rest : List HostAction} (h : s.script = .memRead a :: rest) :
    step s = .next (State.answer { s with script := rest } (s.hostMemRead a)) := by
  unfold step takeAction
  rw [h]
  rfl

/-- A step that writes plane memory takes the written state or gives the error response (R61). -/
theorem step_memWrite {s : State} {a : BitVec 32} {v : Sample} {rest : List HostAction}
    (h : s.script = .memWrite a v :: rest) :
    step s = .next (State.accept { s with script := rest } (State.hostMemWrite { s with script := rest } a v)) := by
  unfold step takeAction
  rw [h]
  rfl

/-- The port reads an address below `MEM_SAMPLES`. -/
theorem hostMemRead_inside {s : State} {a : BitVec 32} (h : a.toNat < s.memSamples) :
    s.hostMemRead a = some (s.memRead a.toNat) := if_pos h

/-- The port refuses to read an address at or beyond `MEM_SAMPLES`. -/
theorem hostMemRead_outside {s : State} {a : BitVec 32} (h : ¬ a.toNat < s.memSamples) : s.hostMemRead a = none := if_neg h

/-- The port writes an address below `MEM_SAMPLES`. -/
theorem hostMemWrite_inside {s : State} {a : BitVec 32} (v : Sample) (h : a.toNat < s.memSamples) :
    s.hostMemWrite a v = some (s.memWrite a.toNat v) := if_pos h

/-- The port refuses to write an address at or beyond `MEM_SAMPLES`. -/
theorem hostMemWrite_outside {s : State} {a : BitVec 32} (v : Sample) (h : ¬ a.toNat < s.memSamples) :
    s.hostMemWrite a v = none := if_neg h

/-- Settles O22: inside plane memory the port is `memRead` and `memWrite`, outside it only responds. -/
theorem memoryPortReadsAndWrites : Obligations.MemoryPortReadsAndWrites := by
  intro s a v rest
  refine ⟨fun hs => ?_, fun hs => ?_⟩
  · rw [step_memRead hs]
    by_cases ha : a.toNat < s.memSamples
    · rw [hostMemRead_inside ha, if_pos ha]
      rfl
    · rw [hostMemRead_outside ha, if_neg ha]
      rfl
  · rw [step_memWrite hs]
    by_cases ha : a.toNat < s.memSamples
    · rw [if_pos ha, hostMemWrite_inside (s := { s with script := rest }) v ha]
      exact ⟨_, rfl, rfl, State.memRead_memWrite_same _ _ v, fun b hb => State.memRead_memWrite_other _ v hb⟩
    · rw [if_neg ha, hostMemWrite_outside (s := { s with script := rest }) v ha]
      rfl

/-! ## Commands that do not reach plane memory (R77) -/

/-- A command outside the list of writers leaves plane memory as it was. -/
theorem exec_mem {i : Instr} {s t : State} (h : exec i s = .next t) (hw : writesMemory i = false) : t.mem = s.mem := by
  obtain ⟨f, rfl⟩ | ⟨u, hu, rfl⟩ := exec_cases h
  · rfl
  · cases hu with
    | config => rw [State.complete_mem, State.configured_mem]
    | memory hi => exact absurd hi (by simp [hw])
    | artmap => cases hw
    | _ => rfl

section
variable {i : Instr} {s t u v : State} {checks : Checks}

/-- A command that makes the same checks, and whose effect commutes with replacing plane memory, answers the same next state
with the other memory, whether it faults or completes. -/
theorem run_withMem (m : Memory) (h : run i s checks (completes u) = .next t) (hv : v = { u with mem := m }) :
    run i { s with mem := m } checks (completes v) = .next { t with mem := m } := by
  subst hv
  obtain ⟨f, hf, rfl⟩ | ⟨hpass, he⟩ := run_cases h
  · exact run_of_fault _ hf
  · rw [run_of_pass _ hpass, completes_cases he]
    rfl

theorem gridTransform_withMem {gd gs : RegNum} {f : Grid → Grid} (m : Memory) (h : gridTransform i gd gs f s = .next t) :
    gridTransform i gd gs f { s with mem := m } = .next { t with mem := m } :=
  run_withMem m h rfl

theorem tableCommand_withMem {gd gs : RegNum} {sel : TableSel} {f : Sample → Sample → Sample} (m : Memory)
    (h : tableCommand i gd gs sel f s = .next t) :
    tableCommand i gd gs sel f { s with mem := m } = .next { t with mem := m } := by
  cases sel <;> exact run_withMem m h rfl

theorem waveletCommand_withMem {gd gs : RegNum} {f : Sample → Sample → Sample} (m : Memory)
    (h : waveletCommand i gd gs f s = .next t) :
    waveletCommand i gd gs f { s with mem := m } = .next { t with mem := m } :=
  run_withMem m h rfl

/-- `CONFIG` derives the configuration from `CFGSTAGE` and `QUALITY` alone (R203). -/
theorem State.configured_withMem (s : State) (m : Memory) :
    State.configured { s with mem := m } = { s.configured with mem := m } := by
  simp only [State.configured, State.freeZero]

theorem config_withMem (m : Memory) (h : execConfig s = .next t) :
    execConfig { s with mem := m } = .next { t with mem := m } :=
  run_withMem m h (s.configured_withMem m)

theorem nop_withMem (m : Memory) (h : execNop s = .next t) :
    execNop { s with mem := m } = .next { t with mem := m } := by
  unfold execNop at h ⊢
  exact run_withMem m h rfl

theorem gzero_withMem {gd : RegNum} (m : Memory) (h : execGzero gd s = .next t) :
    execGzero gd { s with mem := m } = .next { t with mem := m } := by
  unfold execGzero at h ⊢
  exact run_withMem m h rfl

theorem gqt_withMem {gd : RegNum} {sel : TableSel} (m : Memory) (h : execGqt gd sel s = .next t) :
    execGqt gd sel { s with mem := m } = .next { t with mem := m } := by
  cases sel <;> exact run_withMem m h rfl

/-- Under the wavelet configuration `INSPECT` writes five zero grids and reads no memory (R245). -/
theorem inspect_withMem {ds : RegNum} {sel : TableSel} (m : Memory) (hx : cfgXform s.cfg = true)
    (h : execInspect ds sel s = .next t) :
    execInspect ds sel { s with mem := m } = .next { t with mem := m } := by
  simp only [execInspect, hx, if_true] at h ⊢
  exact run_withMem m h rfl

/-- A command outside both lists of R77 does the same with any plane memory. -/
theorem exec_withMem (m : Memory) (h : exec i s = .next t) (hw : writesMemory i = false)
    (hr : readsMemory i s.cfg = false) : exec i { s with mem := m } = .next { t with mem := m } := by
  cases i with
  | nop => exact nop_withMem m h
  | config => exact config_withMem m h
  | dset => exact run_withMem m h rfl
  | gmov => exact run_withMem m h rfl
  | gzero => exact gzero_withMem m h
  | gqt => exact gqt_withMem m h
  | dctF => exact gridTransform_withMem m h
  | dctI => exact gridTransform_withMem m h
  | haar8F => exact gridTransform_withMem m h
  | haar8I => exact gridTransform_withMem m h
  | dwtLev => exact run_withMem m h rfl
  | qBlk => exact tableCommand_withMem m h
  | dqBlk => exact tableCommand_withMem m h
  | qwBlk => exact waveletCommand_withMem m h
  | dqwBlk => exact waveletCommand_withMem m h
  | bitsBlk => exact run_withMem m h rfl
  | inspect =>
    have hx : cfgXform s.cfg = true := by simpa [readsMemory] using hr
    exact inspect_withMem m hx h
  | gst => cases hw
  | _ => cases hr

end

/-- Settles O17: the frame of memory by `exec_mem`, the independence of it by `exec_withMem`. -/
theorem registerCommandsIgnoreMemory : Obligations.RegisterCommandsIgnoreMemory :=
  fun _ _ _ h hw => ⟨exec_mem h hw, fun hr m => exec_withMem m h hw hr⟩

end Sys2Proof.Machine
end

section
/-! PROOF. The command word (R90 to R96): its fields, the format check of R92 step 2, and the decoder as one law over the
rows of the opcode map, `decode_of_opcode`. -/

namespace Sys2Proof

/-! ## The fields of an assembled word (R90) -/

/-- Joined words as numbers: the high part counts in units of the low part's size. -/
theorem toNat_append_eq_add {m n : Nat} (x : BitVec m) (y : BitVec n) : (x ++ y).toNat = x.toNat * 2 ^ n + y.toNat := by
  rw [BitVec.toNat_append, ← Nat.shiftLeft_add_eq_or_of_lt y.isLt, Nat.shiftLeft_eq]

/-- A field moved to its place inside 32 bits loses nothing. -/
theorem shiftLeft_mod_of_fits {x n k : Nat} (hx : x < 2 ^ n) (hk : n + k ≤ 32) :
    (x % 2 ^ 32) <<< k % 2 ^ 32 = x <<< k := by
  have hlt : x <<< k < 2 ^ 32 := (Nat.shiftLeft_lt hx).trans_le (Nat.pow_le_pow_right (by decide) hk)
  rw [Nat.mod_eq_of_lt (hx.trans_le (Nat.pow_le_pow_right (by decide) (by omega))), Nat.mod_eq_of_lt hlt]

theorem opField_toNat (w : Word) : (opField w).toNat = w.toNat / 2 ^ 24 := by
  have := w.isLt
  simp [opField, Nat.shiftRight_eq_div_pow]
  omega

/-- The opcode as the statement of R96's list reads it. -/
theorem toNat_shift_eq_opField (w : Word) : (w >>> 24).toNat = (opField w).toNat := by
  rw [opField_toNat, BitVec.toNat_ushiftRight, Nat.shiftRight_eq_div_pow]

theorem opField_of_shift {w : Word} {op : BitVec 8} (h : w >>> 24 = op.setWidth 32) : opField w = op := by
  have hlt := op.isLt
  apply BitVec.eq_of_toNat_eq
  rw [← toNat_shift_eq_opField, h, BitVec.toNat_setWidth]
  omega

theorem fieldA_val (w : Word) : (fieldA w).val = w.toNat / 2 ^ 21 % 8 := by
  simp [fieldA, Nat.shiftRight_eq_div_pow]

theorem fieldB_val (w : Word) : (fieldB w).val = w.toNat / 2 ^ 18 % 8 := by
  simp [fieldB, Nat.shiftRight_eq_div_pow]

theorem fieldC_val (w : Word) : (fieldC w).val = w.toNat / 2 ^ 15 % 8 := by
  simp [fieldC, Nat.shiftRight_eq_div_pow]

theorem fieldM_toNat (w : Word) : (fieldM w).toNat = w.toNat / 2 ^ 13 % 4 := by
  simp [fieldM, Nat.shiftRight_eq_div_pow]

section
variable (op : BitVec 8) (a b c : RegNum) (m : BitVec 2)

theorem assemble_toNat : (assemble op a b c m).toNat =
    op.toNat * 2 ^ 24 + a.val * 2 ^ 21 + b.val * 2 ^ 18 + c.val * 2 ^ 15 + m.toNat * 2 ^ 13 := by
  simp only [assemble, toNat_append_eq_add, BitVec.toNat_ofFin, BitVec.toNat_ofNat]
  omega

@[simp] theorem opField_assemble : opField (assemble op a b c m) = op := Laws.EncodingRow.opField_assemble op a b c m

@[simp] theorem fieldA_assemble : fieldA (assemble op a b c m) = a := by
  apply Fin.ext
  rw [fieldA_val, assemble_toNat]
  omega

@[simp] theorem fieldB_assemble : fieldB (assemble op a b c m) = b := by
  apply Fin.ext
  rw [fieldB_val, assemble_toNat]
  omega

@[simp] theorem fieldC_assemble : fieldC (assemble op a b c m) = c := by
  apply Fin.ext
  rw [fieldC_val, assemble_toNat]
  omega

@[simp] theorem fieldM_assemble : fieldM (assemble op a b c m) = m := by
  apply BitVec.eq_of_toNat_eq
  rw [fieldM_toNat, assemble_toNat]
  omega

/-- The word of a listing line (R100) is the word with those fields. -/
theorem commandWord_eq_assemble : Machine.commandWord op a b c m = assemble op a b c m := by
  apply BitVec.eq_of_toNat_eq
  calc (Machine.commandWord op a b c m).toNat
    _ = op.toNat <<< 24 ||| a.val <<< 21 ||| b.val <<< 18 ||| c.val <<< 15 ||| m.toNat <<< 13 := by
      simp only [Machine.commandWord, BitVec.toNat_or, BitVec.toNat_shiftLeft, BitVec.toNat_setWidth, BitVec.toNat_ofNat]
      rw [shiftLeft_mod_of_fits op.isLt (by decide), shiftLeft_mod_of_fits (n := 3) a.isLt (by decide),
        shiftLeft_mod_of_fits (n := 3) b.isLt (by decide), shiftLeft_mod_of_fits (n := 3) c.isLt (by decide),
        shiftLeft_mod_of_fits m.isLt (by decide)]
    _ = (assemble op a b c m).toNat := by
      simp only [assemble, BitVec.toNat_append, BitVec.toNat_ofFin, BitVec.toNat_ofNat, Nat.shiftLeft_or_distrib,
        ← Nat.shiftLeft_add]
      simp only [Nat.zero_mod, Nat.or_zero, Nat.reduceAdd]

end

/-- `t` is the low bit of the field `m` (R93). -/
theorem fieldT_eq (w : Word) : fieldT w = if (fieldM w).getLsbD 0 then .chroma else .luma := by
  simp [fieldT, fieldM]

/-- The selector of a table-select word is read back from bit 13 (R93). -/
@[simp] theorem fieldT_assemble (op : BitVec 8) (a b c : RegNum) (t : TableSel) :
    fieldT (assemble op a b c (0#1 ++ t.bit)) = t := by
  rw [fieldT_eq, fieldM_assemble]
  cases t <;> rfl

/-- The fields of a word whose low 13 bits are 0 put together are the word. -/
theorem assemble_fields {w : Word} (h : w.extractLsb' 0 13 = 0#13) :
    assemble (opField w) (fieldA w) (fieldB w) (fieldC w) (fieldM w) = w := by
  have hlow : w.toNat % 2 ^ 13 = 0 := by simpa using congrArg BitVec.toNat h
  apply BitVec.eq_of_toNat_eq
  rw [assemble_toNat, opField_toNat, fieldA_val, fieldB_val, fieldC_val, fieldM_toNat]
  omega

/-! ## The format check (R91, R92 step 2) -/

/-- Word w has no bit outside the fields of format f but its opcode. -/
def Format.Fits (f : Format) (w : Word) : Prop := w &&& f.mask = (opField w).setWidth 32 <<< 24

/-- The bits below the opcode that a format does not use are 0 in a word that fits it. -/
theorem Format.Fits.extractLsb'_eq_zero {f : Format} {w : Word} (h : f.Fits w) {start len : Nat}
    (hunused : f.mask.extractLsb' start len = BitVec.allOnes len) (hlow : start + len ≤ 24) :
    w.extractLsb' start len = 0 := by
  calc w.extractLsb' start len
    _ = (w &&& f.mask).extractLsb' start len := by rw [BitVec.extractLsb'_and, hunused, BitVec.and_allOnes]
    _ = ((opField w).setWidth 32 <<< 24).extractLsb' start len := congrArg _ h
    _ = 0 := by
      apply BitVec.eq_of_getLsbD_eq
      intro k hk
      have : start + k < 24 := by omega
      simp [this]

section
variable {f : Format} {w : Word} {op : BitVec 8}

theorem Format.Fits.fieldA_eq_zero (h : f.Fits w) (hunused : f.mask.extractLsb' 21 3 = BitVec.allOnes 3) : fieldA w = 0 :=
  congrArg BitVec.toFin (h.extractLsb'_eq_zero hunused (by decide))

theorem Format.Fits.fieldB_eq_zero (h : f.Fits w) (hunused : f.mask.extractLsb' 18 3 = BitVec.allOnes 3) : fieldB w = 0 :=
  congrArg BitVec.toFin (h.extractLsb'_eq_zero hunused (by decide))

theorem Format.Fits.fieldC_eq_zero (h : f.Fits w) (hunused : f.mask.extractLsb' 15 3 = BitVec.allOnes 3) : fieldC w = 0 :=
  congrArg BitVec.toFin (h.extractLsb'_eq_zero hunused (by decide))

theorem Format.Fits.fieldM_eq_zero (h : f.Fits w) (hunused : f.mask.extractLsb' 13 2 = BitVec.allOnes 2) : fieldM w = 0 :=
  h.extractLsb'_eq_zero hunused (by decide)

/-- In a table-select format bit 14 must be 0, so the selector is all of the field `m` (R91, R93). -/
theorem Format.Fits.selector_eq_fieldM (h : f.Fits w) (hunused : f.mask.extractLsb' 14 1 = BitVec.allOnes 1) :
    0#1 ++ (fieldT w).bit = fieldM w := by
  have h14 : (w.extractLsb' 14 1).getLsbD 0 = false := by
    rw [h.extractLsb'_eq_zero hunused (by decide)]
    rfl
  have hbit : (fieldM w).getLsbD 1 = false := by simpa [fieldM] using h14
  have hsel : ∀ m : BitVec 2, m.getLsbD 1 = false →
      0#1 ++ (if m.getLsbD 0 then TableSel.chroma else .luma).bit = m := by decide
  rw [fieldT_eq]
  exact hsel _ hbit

/-- Every format leaves the low 13 bits unused, so a word that fits one is its fields put together (R90). -/
theorem Format.Fits.assemble_fields (h : f.Fits w) :
    assemble (opField w) (fieldA w) (fieldB w) (fieldC w) (fieldM w) = w := by
  have hlow : f.mask.extractLsb' 0 13 = BitVec.allOnes 13 := by cases f <;> rfl
  exact Sys2Proof.assemble_fields (h.extractLsb'_eq_zero hlow (by decide))

theorem Format.Fits.assemble_N (h : Format.N.Fits w) (hop : opField w = op) :
    assemble op 0 0 0 0 = w := by
  subst hop
  simpa [h.fieldA_eq_zero rfl, h.fieldB_eq_zero rfl, h.fieldC_eq_zero rfl, h.fieldM_eq_zero rfl] using h.assemble_fields

theorem Format.Fits.assemble_A (h : Format.A.Fits w) (hop : opField w = op) :
    assemble op (fieldA w) 0 0 0 = w := by
  subst hop
  simpa [h.fieldB_eq_zero rfl, h.fieldC_eq_zero rfl, h.fieldM_eq_zero rfl] using h.assemble_fields

theorem Format.Fits.assemble_AB (h : Format.AB.Fits w) (hop : opField w = op) :
    assemble op (fieldA w) (fieldB w) 0 0 = w := by
  subst hop
  simpa [h.fieldC_eq_zero rfl, h.fieldM_eq_zero rfl] using h.assemble_fields

theorem Format.Fits.assemble_ABC (h : Format.ABC.Fits w) (hop : opField w = op) :
    assemble op (fieldA w) (fieldB w) (fieldC w) 0 = w := by
  subst hop
  simpa [h.fieldM_eq_zero rfl] using h.assemble_fields

theorem Format.Fits.assemble_ABM (h : Format.ABM.Fits w) (hop : opField w = op) :
    assemble op (fieldA w) (fieldB w) 0 (fieldM w) = w := by
  subst hop
  simpa [h.fieldC_eq_zero rfl] using h.assemble_fields

theorem Format.Fits.assemble_ABT (h : Format.ABT.Fits w) (hop : opField w = op) :
    assemble op (fieldA w) (fieldB w) 0 (0#1 ++ (fieldT w).bit) = w := by
  subst hop
  simpa [h.selector_eq_fieldM rfl, h.fieldC_eq_zero rfl] using h.assemble_fields

theorem Format.Fits.assemble_AT (h : Format.AT.Fits w) (hop : opField w = op) :
    assemble op (fieldA w) 0 0 (0#1 ++ (fieldT w).bit) = w := by
  subst hop
  simpa [h.selector_eq_fieldM rfl, h.fieldB_eq_zero rfl, h.fieldC_eq_zero rfl] using h.assemble_fields

end

/-! ## The operands of a row (R94) -/

/-- The command of i's row with its operands read from word w. -/
def Instr.withFields (i : Instr) (w : Word) : Instr :=
  match i with
  | .nop => .nop
  | .config => .config
  | .dset _ => .dset (fieldA w)
  | .gld _ _ => .gld (fieldA w) (fieldB w)
  | .gst _ _ => .gst (fieldA w) (fieldB w)
  | .gmov _ _ => .gmov (fieldA w) (fieldB w)
  | .gzero _ => .gzero (fieldA w)
  | .gqt _ _ => .gqt (fieldA w) (fieldT w)
  | .split _ _ => .split (fieldA w) (fieldB w)
  | .merge _ _ => .merge (fieldA w) (fieldB w)
  | .copy _ _ => .copy (fieldA w) (fieldB w)
  | .cscF _ _ => .cscF (fieldA w) (fieldB w)
  | .cscI _ _ => .cscI (fieldA w) (fieldB w)
  | .dctF _ _ => .dctF (fieldA w) (fieldB w)
  | .dctI _ _ => .dctI (fieldA w) (fieldB w)
  | .haar8F _ _ => .haar8F (fieldA w) (fieldB w)
  | .haar8I _ _ => .haar8I (fieldA w) (fieldB w)
  | .dwtLev _ => .dwtLev (fieldA w)
  | .dwtF _ _ => .dwtF (fieldA w) (fieldB w)
  | .dwtI _ _ => .dwtI (fieldA w) (fieldB w)
  | .qBlk _ _ _ => .qBlk (fieldA w) (fieldB w) (fieldT w)
  | .dqBlk _ _ _ => .dqBlk (fieldA w) (fieldB w) (fieldT w)
  | .qwBlk _ _ => .qwBlk (fieldA w) (fieldB w)
  | .dqwBlk _ _ => .dqwBlk (fieldA w) (fieldB w)
  | .qwPln _ _ => .qwPln (fieldA w) (fieldB w)
  | .dqwPln _ _ => .dqwPln (fieldA w) (fieldB w)
  | .bitsBlk _ => .bitsBlk (fieldA w)
  | .bitsPln _ => .bitsPln (fieldA w)
  | .cdown _ _ _ => .cdown (fieldA w) (fieldB w) (fieldM w)
  | .cup _ _ _ => .cup (fieldA w) (fieldB w) (fieldM w)
  | .procPln _ _ _ => .procPln (fieldA w) (fieldB w) (fieldT w)
  | .inspect _ _ => .inspect (fieldA w) (fieldT w)
  | .psnr _ _ => .psnr (fieldA w) (fieldB w)
  | .ssim _ _ => .ssim (fieldA w) (fieldB w)
  | .artmap _ _ _ => .artmap (fieldA w) (fieldB w) (fieldC w)

@[simp] theorem Instr.withFields_format (i : Instr) (w : Word) : (i.withFields w).format = i.format := by
  cases i <;> rfl

/-- A command's operands read back from its own word are its operands. -/
@[simp] theorem Instr.withFields_encode (i : Instr) : i.withFields (encode i) = i := by
  cases i <;> simp [Instr.withFields, encode]

/-- A word of i's row that fits the row's format is the word of the command read from it. -/
theorem encode_withFields {i : Instr} {w : Word} (hop : opField w = i.opcode) (h : i.format.Fits w) :
    encode (i.withFields w) = w := by
  cases i with
  | nop | config => exact h.assemble_N hop
  | dset | gzero | dwtLev | bitsBlk | bitsPln => exact h.assemble_A hop
  | gqt | inspect => exact h.assemble_AT hop
  | qBlk | dqBlk | procPln => exact h.assemble_ABT hop
  | cdown | cup => exact h.assemble_ABM hop
  | artmap => exact h.assemble_ABC hop
  | _ => exact h.assemble_AB hop

/-! ## The word of a command matches its row (R91, R94) -/

theorem encodingRow (i : Instr) : Laws.EncodingRow.Statement i :=
  match i with
  | .nop => Laws.EncodingRow.nop
  | .config => Laws.EncodingRow.config
  | .dset dd => Laws.EncodingRow.dset dd
  | .gld gd ds => Laws.EncodingRow.gld gd ds
  | .gst dd gs => Laws.EncodingRow.gst dd gs
  | .gmov gd gs => Laws.EncodingRow.gmov gd gs
  | .gzero gd => Laws.EncodingRow.gzero gd
  | .gqt gd t => Laws.EncodingRow.gqt gd t
  | .split dd ds => Laws.EncodingRow.split dd ds
  | .merge dd ds => Laws.EncodingRow.merge dd ds
  | .copy dd ds => Laws.EncodingRow.copy dd ds
  | .cscF dd ds => Laws.EncodingRow.cscF dd ds
  | .cscI dd ds => Laws.EncodingRow.cscI dd ds
  | .dctF gd gs => Laws.EncodingRow.dctF gd gs
  | .dctI gd gs => Laws.EncodingRow.dctI gd gs
  | .haar8F gd gs => Laws.EncodingRow.haar8F gd gs
  | .haar8I gd gs => Laws.EncodingRow.haar8I gd gs
  | .dwtLev ds => Laws.EncodingRow.dwtLev ds
  | .dwtF dd ds => Laws.EncodingRow.dwtF dd ds
  | .dwtI dd ds => Laws.EncodingRow.dwtI dd ds
  | .qBlk gd gs t => Laws.EncodingRow.qBlk gd gs t
  | .dqBlk gd gs t => Laws.EncodingRow.dqBlk gd gs t
  | .qwBlk gd gs => Laws.EncodingRow.qwBlk gd gs
  | .dqwBlk gd gs => Laws.EncodingRow.dqwBlk gd gs
  | .qwPln dd ds => Laws.EncodingRow.qwPln dd ds
  | .dqwPln dd ds => Laws.EncodingRow.dqwPln dd ds
  | .bitsBlk gs => Laws.EncodingRow.bitsBlk gs
  | .bitsPln ds => Laws.EncodingRow.bitsPln ds
  | .cdown dd ds m => Laws.EncodingRow.cdown dd ds m
  | .cup dd ds m => Laws.EncodingRow.cup dd ds m
  | .procPln dd ds t => Laws.EncodingRow.procPln dd ds t
  | .inspect ds t => Laws.EncodingRow.inspect ds t
  | .psnr da db => Laws.EncodingRow.psnr da db
  | .ssim da db => Laws.EncodingRow.ssim da db
  | .artmap dd da db => Laws.EncodingRow.artmap dd da db

@[simp] theorem opField_encode (i : Instr) : opField (encode i) = i.opcode := (encodingRow i).2

theorem fits_encode (i : Instr) : i.format.Fits (encode i) := by
  obtain ⟨hmask, hop⟩ := encodingRow i
  rw [Format.Fits, hop]
  exact hmask

/-! ## Decoding (R92) -/

/-- Steps 2 and 3 of R92 for a word w of the row of command i. -/
def rowVerdict (w : Word) (i : Instr) : Except DecodeError Instr :=
  if w &&& i.format.mask = (opField w).setWidth 32 <<< 24 then
    (if i.wellFormed then .ok i else .error .reservedMode)
  else .error .mustBeZero

theorem rowVerdict_of_fits {w : Word} {i : Instr} (h : i.format.Fits w) :
    rowVerdict w i = if i.wellFormed then .ok i else .error .reservedMode := if_pos h

theorem rowVerdict_of_not_fits {w : Word} {i : Instr} (h : ¬ i.format.Fits w) :
    rowVerdict w i = .error .mustBeZero := if_neg h

theorem rowVerdict_eq_ok {w : Word} {i j : Instr} (h : rowVerdict w i = .ok j) :
    i.format.Fits w ∧ i.wellFormed = true ∧ i = j := by
  by_cases hfit : i.format.Fits w
  · cases hwf : i.wellFormed
    · simp [rowVerdict_of_fits hfit, hwf] at h
    · exact ⟨hfit, rfl, by simpa [rowVerdict_of_fits hfit, hwf] using h⟩
  · simp [rowVerdict_of_not_fits hfit] at h

theorem decodeAs_eq_rowVerdict {w : Word} {f : Format} {i : Instr} (hf : i.format = f) (hwf : i.wellFormed = true) :
    decodeAs w f i = rowVerdict w i := by
  rw [decodeAs, rowVerdict, hf, if_pos hwf]

theorem decodeMode_eq_rowVerdict {w : Word} {i : Instr} (hf : i.format = .ABM)
    (hwf : i.wellFormed = modeLegal (fieldM w)) : decodeMode w i = rowVerdict w i := by
  rw [decodeMode, rowVerdict, hf, hwf]

/-- The opcode selects the row, the format and the mode are checked, the operands are the word's fields. -/
theorem decode_of_opcode {i : Instr} {w : Word} (h : opField w = i.opcode) :
    decode w = rowVerdict w (i.withFields w) := by
  cases i with
  | cdown | cup =>
    simp only [decode, h, Instr.opcode]
    exact decodeMode_eq_rowVerdict rfl rfl
  | _ =>
    simp only [decode, h, Instr.opcode]
    exact decodeAs_eq_rowVerdict rfl rfl

/-- The arm of `decode` that answers row i's command is the one of i's opcode. -/
theorem decodeAs_row {w : Word} {f : Format} {i : Instr} (h : (opField w).toNat = i.opcode.toNat) :
    decodeAs w f i = .error .unassignedOpcode ∨ ∃ j : Instr, opField w = j.opcode :=
  .inr ⟨i, BitVec.eq_of_toNat_eq h⟩

/-- A word whose opcode is no row's is rejected in step 1. The arms 29 and 30 are the two chroma commands, 36 the last. -/
theorem decode_unassigned_or_row (w : Word) :
    decode w = .error .unassignedOpcode ∨ ∃ i : Instr, opField w = i.opcode := by
  unfold decode
  split
  case h_29 hop => exact .inr ⟨.cdown 0 0 0, BitVec.eq_of_toNat_eq hop⟩
  case h_30 hop => exact .inr ⟨.cup 0 0 0, BitVec.eq_of_toNat_eq hop⟩
  case h_36 => exact .inl rfl
  all_goals
    rename_i hop
    exact decodeAs_row hop

/-- What a command's own word decodes to: all that is left to reject is the reserved mode (R92 step 3). -/
theorem decode_encode (i : Instr) :
    decode (encode i) = if i.wellFormed then .ok i else .error .reservedMode := by
  have hfit : (i.withFields (encode i)).format.Fits (encode i) := by simpa using fits_encode i
  rw [decode_of_opcode (opField_encode i), rowVerdict_of_fits hfit, Instr.withFields_encode]

/-- A word with a row's opcode and a must-be-zero bit set is rejected in step 2. -/
theorem decode_of_not_fits {i : Instr} {w : Word} (hop : opField w = i.opcode) (h : ¬ i.format.Fits w) :
    decode w = .error .mustBeZero := by
  rw [decode_of_opcode hop, rowVerdict_of_not_fits (by rwa [Instr.withFields_format])]

/-- A chroma command word with mode 3 is rejected in step 3. -/
theorem decode_of_not_wellFormed {i : Instr} (h : i.wellFormed = false) : decode (encode i) = .error .reservedMode := by
  simp [decode_encode, h]

/-! ## The statements -/

/-- Settles O1: a well-formed command is the one its own word decodes to, by `decode_encode`. -/
theorem decodeInvertsEncode : Obligations.DecodeInvertsEncode := by
  intro i hwf
  rw [decode_encode, if_pos hwf]

/-- Settles O2: the word is of some row (`decode_unassigned_or_row`), it fits the row's format, and a word that fits is the
encoding of the command read from it (`encode_withFields`). -/
theorem decodedWordIsItsOnlyEncoding : Obligations.DecodedWordIsItsOnlyEncoding := by
  intro w i h
  obtain hun | ⟨j, hop⟩ := decode_unassigned_or_row w
  · rw [hun] at h
    cases h
  · rw [decode_of_opcode hop] at h
    obtain ⟨hfit, hwf, rfl⟩ := rowVerdict_eq_ok h
    rw [Instr.withFields_format] at hfit
    exact ⟨hwf, encode_withFields hop hfit⟩

/-- Settles O3: no row has an opcode of R96's list, so its words are rejected in step 1; the other clauses are steps 2
and 3. -/
theorem illegalWordsAreRejected : Obligations.IllegalWordsAreRejected := by
  refine ⟨fun w hlist => ?_, fun w i hw hmask => ?_, fun dd ds => ⟨?_, ?_⟩⟩
  · obtain hun | ⟨i, hop⟩ := decode_unassigned_or_row w
    · exact hun
    · rw [toNat_shift_eq_opField, hop] at hlist
      cases i <;> simp [Instr.opcode] at hlist
  · have hop := opField_of_shift hw
    exact decode_of_not_fits hop (by rwa [Format.Fits, hop])
  · rw [commandWord_eq_assemble]
    exact decode_of_not_wellFormed (i := .cdown dd ds 3#2) rfl
  · rw [commandWord_eq_assemble]
    exact decode_of_not_wellFormed (i := .cup dd ds 3#2) rfl

end Sys2Proof
end

section
/-! PROOF. Progress (R68, R92, R121): what a command reaches through descriptors it has checked, so that under the invariant
no step stops; and the step that rejects a word. -/

namespace Sys2Proof.Machine

/-- The result is a next state: neither a fault nor a refusal of the model. -/
def Proceeds (r : Result) : Prop := ∃ t, r = .next t

/-! ## The frame of a command -/

theorem completes_proceeds (s : State) : Proceeds (completes s) := ⟨_, rfl⟩

/-- A command that faults proceeds, so only its effects under passed checks are left (R121, R305). -/
theorem run_proceeds {i : Instr} {s : State} {checks : Checks} {effects : Result}
    (h : firstFault checks = none → Proceeds effects) : Proceeds (run i s checks effects) := by
  cases hf : firstFault checks with
  | some f => exact ⟨_, run_of_fault effects hf⟩
  | none =>
    rw [run_of_pass effects hf]
    exact h hf

/-- A command without memory reach. -/
theorem run_completes_proceeds (i : Instr) (s : State) (checks : Checks) (u : State) :
    Proceeds (run i s checks (completes u)) := run_proceeds fun _ => completes_proceeds u

section
variable {i : Instr} {s : State} {checks : Checks}

/-- Under the invariant a descriptor that passes its validity check is legal (R23, R68). -/
theorem State.descriptorsOk.legal (h : s.descriptorsOk) {n : RegNum} (hn : (needDesc s n).1 = false) :
    (s.desc n).legal s.memSamples = true := by
  have hv : s.descValid n = true := by simpa [needDesc] using hn
  simpa [hv] using h n

theorem reaching_proceeds {images : List Desc} {effects : Result} (hl : ∀ d ∈ images, d.legal s.memSamples = true)
    (h : Proceeds effects) : Proceeds (reaching s images effects) := by
  rwa [reaching_of_legal effects (List.all_eq_true.2 hl)]

/-- The first checks of a command name valid descriptors: those that it checks are legal. -/
theorem legal_of_checks {ns : List RegNum} (h : s.descriptorsOk)
    (hpass : firstFault (ns.map (needDesc s) ++ checks) = none) :
    ∀ d ∈ ns.map s.desc, d.legal s.memSamples = true := by
  induction ns with
  | nil => simp
  | cons n ns ih =>
    rw [List.map_cons, List.cons_append, firstFault_cons_eq_none] at hpass
    obtain ⟨hn, hrest⟩ := hpass
    rw [List.map_cons, List.forall_mem_cons]
    exact ⟨h.legal hn, ih hrest⟩

/-- A command that checks its descriptors first and reaches memory through them only (R67, R121). -/
theorem run_reaching_proceeds (ns : List RegNum) (u : State) (h : s.descriptorsOk) :
    Proceeds (run i s (ns.map (needDesc s) ++ checks) (reaching s (ns.map s.desc) (completes u))) :=
  run_proceeds fun hpass => reaching_proceeds (legal_of_checks h hpass) (completes_proceeds u)

/-- The same where memory is reached on one branch only (R245, R261). -/
theorem run_ite_reaching_proceeds (ns : List RegNum) {c : Prop} [Decidable c] (u v : State) (h : s.descriptorsOk) :
    Proceeds (run i s (ns.map (needDesc s) ++ checks)
      (if c then reaching s (ns.map s.desc) (completes u) else completes v)) := by
  refine run_proceeds fun hpass => ?_
  split
  · exact reaching_proceeds (legal_of_checks h hpass) (completes_proceeds u)
  · exact completes_proceeds v

/-- A chroma command checks its mode before its descriptors (R92 step 3, R232). -/
theorem chromaRun_reaching_proceeds {m : BitVec 2} (ns : List RegNum) (u : State) (h : s.descriptorsOk) :
    Proceeds (chromaRun i m s (ns.map (needDesc s) ++ checks) (reaching s (ns.map s.desc) (completes u))) := by
  refine run_proceeds fun hpass => ?_
  obtain ⟨-, hrest⟩ := (firstFault_cons_eq_none _ _).1 hpass
  exact reaching_proceeds (legal_of_checks h hrest) (completes_proceeds u)

end

/-! ## All commands and host actions -/

theorem inspect_proceeds {s : State} (h : s.descriptorsOk) (ds : RegNum) (sel : TableSel) :
    Proceeds (execInspect ds sel s) := by
  refine run_proceeds fun hpass => ?_
  split
  · exact completes_proceeds _
  · exact reaching_proceeds (legal_of_checks (ns := [ds]) h hpass) (completes_proceeds _)

/-- With legal descriptors every command proceeds: it faults precisely or completes. -/
theorem exec_proceeds {s : State} (h : s.descriptorsOk) (i : Instr) : Proceeds (exec i s) := by
  cases i with
  | nop => exact completes_proceeds s
  | gzero => exact completes_proceeds _
  | config | dset | gmov | gqt | dwtLev | bitsBlk => exact run_completes_proceeds ..
  | dctF | dctI | haar8F | haar8I | qBlk | dqBlk | qwBlk | dqwBlk => exact run_completes_proceeds ..
  | gld gd ds => exact run_reaching_proceeds [ds] _ h
  | gst dd gs => exact run_reaching_proceeds [dd] _ h
  | bitsPln ds => exact run_reaching_proceeds [ds] _ h
  | split dd ds | merge dd ds | copy dd ds | cscF dd ds | cscI dd ds | dwtF dd ds | dwtI dd ds | qwPln dd ds
  | dqwPln dd ds | procPln dd ds => exact run_reaching_proceeds [dd, ds] _ h
  | cdown dd ds m | cup dd ds m => exact chromaRun_reaching_proceeds [dd, ds] _ h
  | inspect ds sel => exact inspect_proceeds h ds sel
  | psnr da db | ssim da db => exact run_ite_reaching_proceeds [da, db] _ _ h
  | artmap dd da db => exact run_ite_reaching_proceeds [dd, da, db] _ _ h

theorem issue_of_error {w : Word} {s : State} {e : DecodeError} (hf : s.status.fault = false)
    (hd : decode w = .error e) : issue w s = .next (s.begin.raise w .illegalCmd) := by
  simp [issue, hf, hd]

/-- A word is ignored, rejected or run, and each of them proceeds (R92, R306). -/
theorem issue_proceeds {s : State} (h : s.descriptorsOk) (w : Word) : Proceeds (issue w s) := by
  cases hf : s.status.fault with
  | true => exact ⟨_, issue_of_fault hf⟩
  | false =>
    cases hd : decode w with
    | error e => exact ⟨_, issue_of_error hf hd⟩
    | ok i =>
      have hbegin : s.begin.descriptorsOk := h
      rw [issue_of_decode hf hd]
      exact exec_proceeds hbegin i

/-- Only the write to `CMD` runs a command; every other host action answers at once (R20, R25, R61). -/
theorem act_proceeds {s : State} (h : s.descriptorsOk) (a : HostAction) : Proceeds (act a s) := by
  cases a with
  | regRead i => exact ⟨_, rfl⟩
  | memRead b => exact ⟨_, rfl⟩
  | memWrite b v => exact ⟨_, rfl⟩
  | resetInput => exact ⟨_, rfl⟩
  | regWrite i v =>
    have hdone : (s.respond .done).descriptorsOk := h
    simp only [act]
    split
    · exact issue_proceeds hdone _
    · exact ⟨_, rfl⟩

/-! ## The statements -/

/-- Settles O11: with no action to take the state stays; else `act_proceeds`, which needs only the invariant's descriptor
clause. -/
theorem stepAlwaysAnswersNext : Obligations.StepAlwaysAnswersNext := by
  intro s hinv
  unfold step takeAction
  split
  · exact ⟨s, rfl⟩
  · rename_i a rest _
    have hrest : State.descriptorsOk { s with script := rest } := hinv.descriptors
    exact act_proceeds hrest a

/-- Settles O6: the issued word is rejected (`issue_of_error`), and `raise` writes only the fault fields. -/
theorem undecodableWordRaisesIllegalCmd : Obligations.UndecodableWordRaisesIllegalCmd := by
  intro s v rest e hs hf hd
  exact (step_cmdWrite hs).trans (issue_of_error hf hd)

end Sys2Proof.Machine
end

section
/-! PROOF. How a command's statement follows its rule: the word of its listing line decodes to it, its chain of conditions
is its checks in order (R14, R310), and a completed command wrote the memory or the grid that it names and nothing else. -/

namespace Sys2Proof.Machine

/-! ## The word of a listing line (R100) -/

/-- A listing line with the fields of a well-formed command's word decodes to the command. -/
theorem decode_commandWord {i : Instr} {op : BitVec 8} {a b c : RegNum} {m : BitVec 2}
    (hword : encode i = assemble op a b c m) (hwf : i.wellFormed = true) : decode (commandWord op a b c m) = .ok i := by
  rw [commandWord_eq_assemble, ← hword, decode_encode, if_pos hwf]

/-- The field `m` of a table-select listing line holds the selector in its low bit (R93). -/
theorem selectorField_eq (sel : TableSel) : selectorField sel = 0#1 ++ sel.bit := by
  cases sel <;> rfl

/-! ## The failing condition of each shared check (R121) -/

section
variable (s : State) (d e : Desc)

theorem needDesc_fails (n : RegNum) : (needDesc s n).1 = true ↔ s.descValid n = false := by
  simp [needDesc]

theorem needGrid_fails (n : RegNum) : (needGrid s n).1 = true ↔ s.gridValid n = false := by
  simp [needGrid]

theorem needConfig_fails : (needConfig s).1 = true ↔ s.status.cfgv = false := by
  simp [needConfig]

theorem needChannel_fails : (needChannel s d).1 = true ↔ d.c.toNat ≤ s.a2.toNat := by
  simp [needChannel]

theorem needBlock_fails : (needBlock s d).1 = true ↔ d.w.toNat ≤ 8 * s.a0.toNat ∨ d.h.toNat ≤ 8 * s.a1.toNat := by
  simp [needBlock]

theorem needApart_fails : (needApart d e).1 = true ↔ d.meets e = true := Iff.rfl

/-- The shape check of `SPLIT` and `MERGE`: `plane` has one channel and the images are of one size (R128, R129). -/
theorem needPlane_fails (plane : Desc) :
    (needShape (plane.c == 1 && d.sameSize e)).1 = true ↔ plane.c ≠ 1 ∨ d.w ≠ e.w ∨ d.h ≠ e.h := by
  simp only [needShape, Desc.sameSize, Bool.not_eq_true', Bool.and_eq_false_iff, beq_eq_false_iff_ne]

theorem needSameShape_fails : (needShape (d.sameShape e)).1 = true ↔ d.w ≠ e.w ∨ d.h ≠ e.h ∨ d.c ≠ e.c := by
  simp only [needShape, Desc.sameShape, Bool.not_eq_true', Bool.and_eq_false_iff, beq_eq_false_iff_ne, or_assoc]

end

/-! ## A chain of conditions is the list of checks -/

section
variable {i : Instr} {s : State} {checks : Checks} {effects : Result} {goal : Prop}

/-- The first condition of a statement is the failing condition of the command's first check; the rest of the statement is
about the rest of its checks. -/
theorem ite_raises_of_check {check : Bool × FaultCode} {c : Prop} [Decidable c]
    (h : exec i s = run i s (check :: checks) effects) (hc : check.1 = true ↔ c)
    (hrest : ¬ c → exec i s = run i s checks effects → goal) : if c then Raises i s check.2 else goal := by
  obtain ⟨failing, f⟩ := check
  split
  case isTrue hcond =>
    obtain rfl : failing = true := hc.2 hcond
    exact h
  case isFalse hcond =>
    obtain rfl : failing = false := Bool.eq_false_iff.2 fun hfail => hcond (hc.1 hfail)
    exact hrest hcond h

/-- Two checks in a row that raise one fault are one condition of the statement. -/
theorem run_checks_or (a b : Bool) (f : FaultCode) :
    run i s ((a, f) :: (b, f) :: checks) effects = run i s ((a || b, f) :: checks) effects := by
  cases a <;> rfl

/-- The two validity checks of a command from image to image. -/
theorem ite_raises_of_needDescs {dd ds : RegNum}
    (h : exec i s = run i s (needDesc s dd :: needDesc s ds :: checks) effects)
    (hrest : exec i s = run i s checks effects → goal) :
    if s.descValid dd = false ∨ s.descValid ds = false then Raises i s .uninit else goal :=
  ite_raises_of_check (h.trans (run_checks_or _ _ _)) (by simp) fun _ => hrest

/-- A command whose checks all passed and that reaches legal images only completes. -/
theorem exec_of_reaching {images : List Desc} {u : State} (h : exec i s = run i s [] (reaching s images (completes u)))
    (hl : ∀ d ∈ images, d.legal s.memSamples = true) : exec i s = .next u.complete :=
  h.trans (reaching_of_legal _ (List.all_eq_true.2 hl))

theorem exec_of_reaching_pair {d e : Desc} {u : State}
    (h : exec i s = run i s [] (reaching s [d, e] (completes u))) (hd : d.legal s.memSamples = true)
    (he : e.legal s.memSamples = true) : exec i s = .next u.complete :=
  exec_of_reaching h (List.forall_mem_cons.2 ⟨hd, List.forall_mem_singleton.2 he⟩)

end

/-! ## What a completed command wrote -/

theorem onlyMemory_memWriteAll (s : State) (ws : List (Nat × Sample)) : OnlyMemory s (s.memWriteAll ws).complete := rfl

theorem onlyGrid_setGrid (s : State) (n : RegNum) (g : Grid) : OnlyGrid s (s.setGrid n g).complete n :=
  ⟨rfl, fun _ hm => s.grid_setGrid_other g hm⟩

/-- Grid n after a command that moved finite samples into it. -/
theorem grid_setGrid_moved {s : State} {n : RegNum} {g : Grid} {finite : Bool} (h : finite = true) :
    (s.setGrid n (s.movedGrid finite 0 g)).complete.grid n = g := by
  subst h
  rw [movedGrid_finite]
  exact s.grid_setGrid_same n g

/-- The writes to a channel of an image stay inside its region (R67). -/
theorem outsideUnchanged_writeChannel (s : State) {d : Desc} {ch : Nat} (hch : ch < d.c.toNat)
    (v : Nat → Nat → Sample) : OutsideUnchanged d s (s.writeChannel d ch v).complete := by
  intro a ha
  refine s.memRead_writeChannel_other d ch v a fun row col hr hc => ?_
  have hlo := d.base_le_idx row col ch
  have hhi := d.idx_lt_limit hr hc hch
  omega

theorem outsideUnchanged_writeImage (s : State) (d : Desc) (v : Nat → Sample) :
    OutsideUnchanged d s (s.writeImage d v).complete :=
  fun a ha => s.memRead_writeImage_other d v a ha

end Sys2Proof.Machine
end

section
/-! PROOF. The statements of the system and data-movement commands that write registers: NOP, DSET, GLD, GMOV, GZERO and
GQT (R120, R122, R123, R125 to R127), and what every command does to the frame's fields (R121, R305). -/

namespace Sys2Proof.Machine

/-! ## The frame (R31 to R33, R121) -/

/-- No effect of a command reaches CMDCNT, FCMD, FAULT or FCODE: only the frame writes them. -/
theorem CommandEffect.frameFields {i : Instr} {s u : State} (hu : CommandEffect s i u) :
    u.cmdcnt = s.cmdcnt ∧ u.fcmd = s.fcmd ∧ u.status.fault = s.status.fault ∧ u.status.fcode = s.status.fcode := by
  cases hu with
  | config => simp
  | _ => exact ⟨rfl, rfl, rfl, rfl⟩

/-- Settles O12: the two cases are those of `exec_cases`, and a completed command's effect leaves the frame's fields to
`State.complete`. -/
theorem commandsFaultPreciselyOrComplete : Obligations.CommandsFaultPreciselyOrComplete := by
  intro i s t h
  obtain hfault | ⟨u, hu, rfl⟩ := exec_cases h
  · exact .inl hfault
  · obtain ⟨hcnt, hfcmd, hfault, hfcode⟩ := hu.frameFields
    exact .inr ⟨congrArg (· + 1) hcnt, hfcmd, hfault, hfcode, rfl⟩

/-! ## NOP (R120) -/

/-- The format of `NOP` uses no field, so a word of its opcode other than its own has a must-be-zero bit set. -/
theorem decode_nop_opcode {w : Word} (hop : w >>> 24 = 0) (hw : w ≠ 0) : decode w = .error .mustBeZero := by
  have hopcode : opField w = Instr.nop.opcode := opField_of_shift hop
  refine decode_of_not_fits hopcode fun hfits => hw ?_
  exact (hfits.assemble_N hopcode).symm

/-- Settles O25. -/
theorem nopOnlyCounts : Obligations.NopOnlyCounts :=
  ⟨decode_encode .nop, fun _ hop hw => decode_nop_opcode hop hw, fun _ => ⟨rfl, rfl⟩⟩

/-! ## DSET (R122) -/

/-- Check 1 of R122 as a condition on `A1..A3`. -/
theorem State.badDims_iff (s : State) :
    s.badDims = true ↔
      s.a1 = 0 ∨ s.a2 = 0 ∨ s.a3 = 0 ∨ 65535 < s.a1.toNat ∨ 65535 < s.a2.toNat ∨ 255 < s.a3.toNat := by
  simp only [State.badDims, Bool.or_eq_true, beq_iff_eq, decide_eq_true_eq, or_assoc]

/-- Check 2 of R122. -/
theorem State.outOfBounds_iff (s : State) :
    s.outOfBounds = true ↔ s.memSamples < s.a0.toNat + s.a1.toNat * s.a2.toNat * s.a3.toNat := decide_eq_true_iff

/-- Dimensions that fit their fields are not truncated by the record (R122). -/
theorem State.stagedDesc_dims {s : State} (h1 : s.a1.toNat ≤ 65535) (h2 : s.a2.toNat ≤ 65535) (h3 : s.a3.toNat ≤ 255) :
    s.stagedDesc.w.toNat = s.a1.toNat ∧ s.stagedDesc.h.toNat = s.a2.toNat ∧ s.stagedDesc.c.toNat = s.a3.toNat :=
  ⟨Nat.mod_eq_of_lt (by omega), Nat.mod_eq_of_lt (by omega), Nat.mod_eq_of_lt (by omega)⟩

/-- Settles O27. -/
theorem dsetBuildsDescriptor : Obligations.DsetBuildsDescriptor := by
  intro dd s
  refine ⟨decode_commandWord rfl rfl, ?_⟩
  refine ite_raises_of_check (check := (s.badDims, .badDims)) rfl s.badDims_iff fun hdims h => ?_
  refine ite_raises_of_check (check := (s.outOfBounds, .bounds)) h s.outOfBounds_iff fun _ h => ?_
  obtain ⟨hw, hh, hc⟩ := s.stagedDesc_dims (by omega) (by omega) (by omega)
  have hdesc : (s.setDesc dd s.stagedDesc).complete.desc dd = s.stagedDesc := s.desc_setDesc_same dd _
  have hvalid : (s.setDesc dd s.stagedDesc).complete.descValid dd = true :=
    (s.descValid_setDesc dd dd s.stagedDesc).trans (by simp)
  refine ⟨_, h, rfl, hvalid, ?_⟩
  rw [hdesc]
  exact ⟨rfl, hw, hh, hc, fun m hm => s.desc_setDesc_other _ hm⟩

/-! ## GLD (R123) -/

/-- An element of a loaded block is the image's sample where it exists, else 0. -/
theorem gridAt_loadBlock (s : State) (d : Desc) (bx by' ch : Nat) {i j : Nat} (hi : i < 8) (hj : j < 8) :
    gridAt (s.loadBlock d bx by' ch) i j =
      if 8 * by' + i < d.h.toNat ∧ 8 * bx + j < d.w.toNat then s.memRead (d.idx (8 * by' + i) (8 * bx + j) ch) else 0#64 := by
  rw [State.loadBlock, gridAt_gridOf _ hi hj]
  simp [blockInside, State.pixel, zeroSample]

/-- Settles O28. -/
theorem gldLoadsPaddedBlock : Obligations.GldLoadsPaddedBlock := by
  intro gd ds s D row col
  refine ⟨decode_commandWord rfl rfl, ?_⟩
  refine ite_raises_of_check rfl (needDesc_fails s ds) fun _ h => ?_
  refine ite_raises_of_check h (needChannel_fails s D) fun _ h => ?_
  refine ite_raises_of_check h (needBlock_fails s D) fun _ h hlegal => ?_
  refine ⟨_, exec_of_reaching h (List.forall_mem_singleton.2 hlegal), onlyGrid_setGrid s gd _, fun hfinite i j hi hj => ?_⟩
  rw [grid_setGrid_moved ((allFinite_blockSamples s D _ _ _).2 hfinite)]
  exact gridAt_loadBlock s D _ _ _ hi hj

/-! ## GMOV, GZERO and GQT (R125 to R127) -/

/-- Settles O30. -/
theorem gridMovesFillOneGrid : Obligations.GridMovesFillOneGrid := by
  intro gd gs sel s
  have hgqt : encode (.gqt gd sel) = assemble 0x14#8 gd 0 0 (selectorField sel) := by
    rw [selectorField_eq]
    rfl
  refine ⟨decode_commandWord rfl rfl, decode_commandWord rfl rfl, decode_commandWord hgqt rfl, ?_, ?_, ?_⟩
  · refine ite_raises_of_check rfl (needGrid_fails s gs) fun _ h => ?_
    refine ⟨_, h, onlyGrid_setGrid s gd _, fun hfinite => ?_⟩
    exact grid_setGrid_moved ((allFinite_gridSamples _).2 hfinite)
  · refine ⟨_, rfl, onlyGrid_setGrid s gd _, fun i j _ _ => ?_⟩
    change gridAt ((s.setGrid gd zeroGrid).grid gd) i j = 0#64
    rw [State.grid_setGrid_same]
    simp [gridAt, zeroGrid, zeroSample]
  · refine ite_raises_of_check rfl (needConfig_fails s) fun _ h => ?_
    refine ⟨_, h, onlyGrid_setGrid s gd _, fun hfinite => ?_⟩
    exact grid_setGrid_moved ((allFinite_gridSamples _).2 hfinite)

end Sys2Proof.Machine
end

section
/-! PROOF. The statements of the data-movement commands that write plane memory: GST, SPLIT, MERGE and COPY (R124, R128 to
R130). -/

namespace Sys2Proof.Machine

/-! ## GST (R124) -/

section
variable (d : Desc) (bx by' ch : Nat) (g : Grid)

/-- The writes of a clipped block: one for each position of the block inside the image. -/
theorem mem_blockWrites (w : Nat × Sample) :
    w ∈ blockWrites d bx by' ch g ↔ ∃ i j, i < 8 ∧ j < 8 ∧ 8 * by' + i < d.h.toNat ∧ 8 * bx + j < d.w.toNat
      ∧ w = (d.idx (8 * by' + i) (8 * bx + j) ch, gridAt g i j) := by
  simp only [blockWrites, blockInside, List.mem_map, List.mem_filter, mem_rowMajor, Bool.and_eq_true, decide_eq_true_eq,
    Prod.exists]
  constructor
  · rintro ⟨i, j, ⟨⟨hi, hj⟩, hr, hc⟩, rfl⟩
    exact ⟨i, j, hi, hj, hr, hc, rfl⟩
  · rintro ⟨i, j, hi, hj, hr, hc, rfl⟩
    exact ⟨i, j, ⟨⟨hi, hj⟩, hr, hc⟩, rfl⟩

/-- A stored element is read back at its address. -/
theorem memRead_blockWrites (s : State) {i j : Nat} (hi : i < 8) (hj : j < 8) (hr : 8 * by' + i < d.h.toNat)
    (hc : 8 * bx + j < d.w.toNat) (hch : ch < d.c.toNat) :
    (s.memWriteAll (blockWrites d bx by' ch g)).memRead (d.idx (8 * by' + i) (8 * bx + j) ch) = gridAt g i j := by
  apply State.memRead_memWriteAll_same
  · exact (mem_blockWrites d bx by' ch g _).2 ⟨i, j, hi, hj, hr, hc, rfl⟩
  · intro w hw haddr
    obtain ⟨i', j', -, -, -, hc', rfl⟩ := (mem_blockWrites d bx by' ch g w).1 hw
    obtain ⟨hrow, hcol, -⟩ := d.idx_inj hc' hch hc hch haddr
    obtain rfl : i' = i := Nat.add_left_cancel hrow
    obtain rfl : j' = j := Nat.add_left_cancel hcol
    rfl

/-- An address of no stored element reads as before. -/
theorem memRead_blockWrites_other (s : State) {a : Nat}
    (h : ∀ i j, i < 8 → j < 8 → 8 * by' + i < d.h.toNat → 8 * bx + j < d.w.toNat →
      a ≠ d.idx (8 * by' + i) (8 * bx + j) ch) :
    (s.memWriteAll (blockWrites d bx by' ch g)).memRead a = s.memRead a := by
  apply State.memRead_memWriteAll_other
  intro w hw
  obtain ⟨i, j, hi, hj, hr, hc, rfl⟩ := (mem_blockWrites d bx by' ch g w).1 hw
  exact (h i j hi hj hr hc).symm

end

/-- Settles O29. -/
theorem gstStoresClippedBlock : Obligations.GstStoresClippedBlock := by
  intro dd gs s D row col
  refine ⟨decode_commandWord rfl rfl, ?_⟩
  refine ite_raises_of_check rfl (needDesc_fails s dd) fun _ h => ?_
  refine ite_raises_of_check h (needGrid_fails s gs) fun _ h => ?_
  refine ite_raises_of_check h (needChannel_fails s D) fun hchannel h => ?_
  refine ite_raises_of_check h (needBlock_fails s D) fun _ h hlegal => ?_
  refine ⟨_, exec_of_reaching h (List.forall_mem_singleton.2 hlegal), onlyMemory_memWriteAll s _, fun a ha => ?_, ?_⟩
  · exact memRead_blockWrites_other D _ _ _ _ s ha
  · intro hfinite i j hi hj hr hc
    have hall : allFinite ((blockWrites D s.a0.toNat s.a1.toNat s.a2.toNat (s.grid gs)).map (·.2)) = true := by
      refine (allFinite_blockWrites D _ _ _ _).2 fun i hi j hj hin => ?_
      simp only [blockInside, Bool.and_eq_true, decide_eq_true_eq] at hin
      exact hfinite i j hi hj hin.1 hin.2
    rw [hall, movedGrid_finite]
    exact memRead_blockWrites D _ _ _ _ s hi hj hr hc (Nat.lt_of_not_le hchannel)

/-! ## SPLIT, MERGE and COPY (R128 to R130) -/

/-- A moved sample of an operand whose samples are all finite is that sample (R10). -/
theorem State.moved_of_finite {s : State} {finite : Bool} (h : finite = true) (place : Nat) (v : Sample) :
    s.moved finite place v = v := by
  rw [h, State.moved_finite]

/-- Settles O31. -/
theorem splitExtractsChannel : Obligations.SplitExtractsChannel := by
  intro dd ds s Dd Ds
  refine ⟨decode_commandWord rfl rfl, ?_⟩
  refine ite_raises_of_needDescs rfl fun h => ?_
  refine ite_raises_of_check h (needPlane_fails Dd Ds Dd) fun hshape h => ?_
  refine ite_raises_of_check h (needChannel_fails s Ds) fun _ h => ?_
  refine ite_raises_of_check h (needApart_fails Dd Ds) fun _ h hDd hDs => ?_
  obtain ⟨-, -, hch, -⟩ := (Desc.legal_iff _ Dd).1 hDd
  simp only [not_or, not_not] at hshape
  obtain ⟨-, hw, hh⟩ := hshape
  refine ⟨_, exec_of_reaching_pair h hDd hDs, onlyMemory_memWriteAll s _, outsideUnchanged_writeChannel s hch _,
    fun hfinite row col hr hc => ?_⟩
  rw [memRead_complete, s.memRead_writeChannel Dd 0 _ (hh ▸ hr) (hw ▸ hc) hch]
  exact State.moved_of_finite ((allFinite_channelSamples s Ds _).2 hfinite) _ _

/-- Settles O32. -/
theorem mergeWritesOneChannel : Obligations.MergeWritesOneChannel := by
  intro dd ds s Dd Ds
  refine ⟨decode_commandWord rfl rfl, ?_⟩
  refine ite_raises_of_needDescs rfl fun h => ?_
  refine ite_raises_of_check h (needPlane_fails Dd Ds Ds) fun hshape h => ?_
  refine ite_raises_of_check h (needChannel_fails s Dd) fun hchannel h => ?_
  refine ite_raises_of_check h (needApart_fails Dd Ds) fun _ h hDd hDs => ?_
  have hch : s.a2.toNat < Dd.c.toNat := Nat.lt_of_not_le hchannel
  simp only [not_or, not_not] at hshape
  obtain ⟨-, hw, hh⟩ := hshape
  refine ⟨_, exec_of_reaching_pair h hDd hDs, onlyMemory_memWriteAll s _, fun a ha => ?_,
    fun hfinite row col hr hc => ?_⟩
  · rw [memRead_complete]
    exact s.memRead_writeChannel_other Dd _ _ a fun row col hr hc => (ha row col hr hc).symm
  · rw [memRead_complete, s.memRead_writeChannel Dd _ _ (hh ▸ hr) (hw ▸ hc) hch]
    exact State.moved_of_finite ((allFinite_channelSamples s Ds 0).2 hfinite) _ _

/-- Settles O33. -/
theorem copyCopiesImage : Obligations.CopyCopiesImage := by
  intro dd ds s Dd Ds
  refine ⟨decode_commandWord rfl rfl, ?_⟩
  refine ite_raises_of_needDescs rfl fun h => ?_
  refine ite_raises_of_check h (needSameShape_fails Dd Ds) fun hshape h => ?_
  refine ite_raises_of_check h (needApart_fails Dd Ds) fun _ h hDd hDs => ?_
  simp only [not_or, not_not] at hshape
  obtain ⟨hw, hh, hc⟩ := hshape
  have hsamples : Dd.samples = Ds.samples := by rw [Desc.samples, Desc.samples, hw, hh, hc]
  refine ⟨_, exec_of_reaching_pair h hDd hDs, onlyMemory_memWriteAll s _, outsideUnchanged_writeImage s Dd _,
    fun hfinite k hk => ?_⟩
  rw [memRead_complete, s.memRead_writeImage Dd _ (hsamples ▸ hk)]
  exact State.moved_of_finite ((allFinite_imageSamples s Ds).2 hfinite) _ _

end Sys2Proof.Machine
end

section
/-! PROOF. The statements of the colour converters CSC.F and CSC.I (R150 to R152): both write every pixel of the source,
taken through one function of three samples, to the destination. -/

namespace Sys2Proof.Machine

/-- The shape check of the colour converters: two images of three channels and of one size (check 3 of R151). -/
theorem needColourPair_fails (dst src : Desc) :
    (needShape (src.c == 3 && dst.c == 3 && dst.sameSize src)).1 = true ↔
      src.c ≠ 3 ∨ dst.c ≠ 3 ∨ dst.w ≠ src.w ∨ dst.h ≠ src.h := by
  simp only [needShape, Desc.sameSize, Bool.not_eq_true', Bool.and_eq_false_iff, beq_eq_false_iff_ne, or_assoc]

/-- The writes to the pixels of a three-channel image stay inside its region (R67). -/
theorem outsideUnchanged_writePixels (s : State) {d : Desc} (h3 : d.c.toNat = 3) (v : Nat → Nat → Nat → Sample) :
    OutsideUnchanged d s (s.writePixels d v).complete :=
  fun a ha => s.memRead_writePixels_other d v h3 a ha

/-- A computed sample of an operand whose samples are all finite is that sample, up to the sign of a zero (R9, R10). -/
theorem sameSample_computed_of_finite {s : State} {finite : Bool} (h : finite = true) (place : Nat) (v : Sample) :
    sameSample (s.computed finite place v) v := by
  rw [h]
  exact sameSample_computed s place v

/-- Every pixel of image `dst` in t is the pixel of image `src` in s taken through `f`, if the samples of `src` are finite. -/
def ConvertsPixels (f : Sample → Sample → Sample → Sample × Sample × Sample) (dst src : Desc) (s t : State) : Prop :=
  s.finiteImage src → ∀ row col, row < src.h.toNat → col < src.w.toNat →
    let p := f (s.memRead (src.idx row col 0)) (s.memRead (src.idx row col 1)) (s.memRead (src.idx row col 2))
    sameSample (t.memRead (dst.idx row col 0)) p.1
    ∧ sameSample (t.memRead (dst.idx row col 1)) p.2.1
    ∧ sameSample (t.memRead (dst.idx row col 2)) p.2.2

/-- The pixels written by `cscEffects`, read back. -/
theorem convertsPixels_writePixels (f : Sample → Sample → Sample → Sample × Sample × Sample) (s : State) {dst src : Desc}
    (h3 : dst.c.toNat = 3) (hw : dst.w = src.w) (hh : dst.h = src.h) :
    ConvertsPixels f dst src s (s.writePixels dst fun row col ch =>
      s.computed (allFinite (s.imageSamples src)) (dst.idx row col ch)
        (component (f (s.pixel src row col 0) (s.pixel src row col 1) (s.pixel src row col 2)) ch)).complete := by
  intro hfinite row col hr hc
  have hall : allFinite (s.imageSamples src) = true := (allFinite_imageSamples s src).2 hfinite
  refine ⟨?_, ?_, ?_⟩
  all_goals
    rw [memRead_complete, s.memRead_writePixels dst _ h3 (hh ▸ hr) (hw ▸ hc) (by decide)]
    exact sameSample_computed_of_finite hall _ _

/-- What a colour converter does: the four checks of R151 in order, and then the conversion of every pixel. -/
theorem csc_raises_or_converts (f : Sample → Sample → Sample → Sample × Sample × Sample) {i : Instr} {dd ds : RegNum}
    {s : State}
    (h : exec i s = run i s (cscChecks s dd ds) (cscEffects s dd ds f)) :
    if s.descValid dd = false ∨ s.descValid ds = false then Raises i s .uninit
    else if (s.desc ds).c ≠ 3 ∨ (s.desc dd).c ≠ 3 ∨ (s.desc dd).w ≠ (s.desc ds).w ∨ (s.desc dd).h ≠ (s.desc ds).h then
      Raises i s .shape
    else if (s.desc dd).meets (s.desc ds) = true then Raises i s .aliasing
    else (s.desc dd).legal s.memSamples = true → (s.desc ds).legal s.memSamples = true →
      ∃ t, exec i s = .next t ∧ OnlyMemory s t ∧ OutsideUnchanged (s.desc dd) s t
        ∧ ConvertsPixels f (s.desc dd) (s.desc ds) s t := by
  refine ite_raises_of_needDescs h fun h => ?_
  refine ite_raises_of_check h (needColourPair_fails _ _) fun hshape h => ?_
  refine ite_raises_of_check h (needApart_fails _ _) fun _ h hDd hDs => ?_
  simp only [not_or, not_not] at hshape
  obtain ⟨-, hc, hw, hh⟩ := hshape
  have h3 : (s.desc dd).c.toNat = 3 := congrArg BitVec.toNat hc
  exact ⟨_, exec_of_reaching_pair h hDd hDs, onlyMemory_memWriteAll s _, outsideUnchanged_writePixels s h3 _,
    convertsPixels_writePixels f s h3 hw hh⟩

/-- Settles O34: `toLumaChroma` is R151's formulas, and nothing clamps its results. -/
theorem cscForwardConvertsPixels : Obligations.CscForwardConvertsPixels :=
  fun _ _ _ => ⟨decode_commandWord rfl rfl, csc_raises_or_converts (toLumaChroma Binary64.num) rfl⟩

/-- Settles O35: `toLinearClamped` is R152's formulas under its clamp. -/
theorem cscInverseConvertsAndClamps : Obligations.CscInverseConvertsAndClamps :=
  fun _ _ _ => ⟨decode_commandWord rfl rfl, csc_raises_or_converts (toLinearClamped Binary64.num) rfl⟩

end Sys2Proof.Machine
end

section
/-! PROOF. The statements of DCT.F and DCT.I (R162, R163): a command from grid to grid writes the samples of its transform,
and the transforms are the rules' nested loops over any numbers. -/

namespace Sys2Proof.Machine

/-- A sum over the positions of an array is the two nested loops, rows outside (R162, R163). -/
theorem Num.sum_rowMajor {S : Type} (N : Num S) (h w : Nat) (f : Nat → Nat → S) :
    N.sum ((rowMajor h w).map fun p => f p.1 p.2) =
      (List.range h).foldl (fun acc r => (List.range w).foldl (fun acc c => N.add acc (f r c)) acc) (N.ofInt 0) := by
  simp only [Num.sum, rowMajor, List.foldl_map, List.foldl_flatMap]

/-- The samples of grid n after a command that computed them from finite samples (R9, R10). -/
theorem sameSample_setGrid_computed {s : State} {n : RegNum} {g : Grid} {finite : Bool} (h : finite = true) {i j : Nat}
    (hi : i < 8) (hj : j < 8) :
    sameSample (gridAt ((s.setGrid n (s.computedGrid finite 0 g)).complete.grid n) i j) (gridAt g i j) := by
  subst h
  have hread : (s.setGrid n (s.computedGrid true 0 g)).complete.grid n = s.computedGrid true 0 g :=
    s.grid_setGrid_same n _
  rw [hread]
  exact sameGrid_computedGrid s 0 g i j hi hj

/-- The sample (u, v) of a forward transform is the double sum of R162. -/
theorem gridAt_dctForward {S : Type} (N : Num S) (f : GridOf S) {u v : Nat} (hu : u < 8) (hv : v < 8) :
    gridAt (dctForward N f) u v =
      N.mul (N.mul (N.mul (N.ofDec 25 2) (dctC N u)) (dctC N v))
        ((List.range 8).foldl (fun acc x => (List.range 8).foldl (fun acc y =>
          N.add acc (N.mul (N.mul (gridAt f x y) (cosAt N x u)) (cosAt N y v))) acc) (N.ofInt 0)) := by
  rw [dctForward, gridAt_gridOf _ hu hv, dctForwardAt,
    N.sum_rowMajor 8 8 fun x y => N.mul (N.mul (gridAt f x y) (cosAt N x u)) (cosAt N y v)]

/-- The sample (x, y) of an inverse transform is the double sum of R163. -/
theorem gridAt_dctInverse {S : Type} (N : Num S) (F : GridOf S) {x y : Nat} (hx : x < 8) (hy : y < 8) :
    gridAt (dctInverse N F) x y =
      N.mul (N.ofDec 25 2)
        ((List.range 8).foldl (fun acc u => (List.range 8).foldl (fun acc v =>
          N.add acc (N.mul (N.mul (N.mul (N.mul (dctC N u) (dctC N v)) (gridAt F u v)) (cosAt N x u)) (cosAt N y v)))
          acc) (N.ofInt 0)) := by
  rw [dctInverse, gridAt_gridOf _ hx hy, dctInverseAt, N.sum_rowMajor 8 8 fun u v =>
    N.mul (N.mul (N.mul (N.mul (dctC N u) (dctC N v)) (gridAt F u v)) (cosAt N x u)) (cosAt N y v)]

/-- Settles O36: the one check of a command from grid to grid, and `gridAt_dctForward` for what it wrote. -/
theorem dctForwardComputesLoops : Obligations.DctForwardComputesLoops := by
  intro gd gs s N c
  refine ⟨decode_commandWord rfl rfl, ?_⟩
  refine ite_raises_of_check rfl (needGrid_fails s gs) fun _ h => ?_
  refine ⟨_, h, onlyGrid_setGrid s gd _, fun hfinite u v hu hv => ?_⟩
  have hsample := sameSample_setGrid_computed (s := s) (n := gd) (g := dctForward N (s.grid gs))
    ((allFinite_gridSamples (s.grid gs)).2 hfinite) hu hv
  rwa [gridAt_dctForward N _ hu hv] at hsample

/-- Settles O37: the same with `gridAt_dctInverse`. -/
theorem dctInverseComputesLoops : Obligations.DctInverseComputesLoops := by
  intro gd gs s N c
  refine ⟨decode_commandWord rfl rfl, ?_⟩
  refine ite_raises_of_check rfl (needGrid_fails s gs) fun _ h => ?_
  refine ⟨_, h, onlyGrid_setGrid s gd _, fun hfinite x y hx hy => ?_⟩
  have hsample := sameSample_setGrid_computed (s := s) (n := gd) (g := dctInverse N (s.grid gs))
    ((allFinite_gridSamples (s.grid gs)).2 hfinite) hx hy
  rwa [gridAt_dctInverse N _ hx hy] at hsample

end Sys2Proof.Machine
end

section
/-! PROOF. The transforms over the reals: the constants of R161 are the cosine of the definition, the cosines of different
frequencies are orthogonal, and so the two transforms are one orthonormal change of basis and its inverse (R160 to R164). -/

namespace Sys2Proof.Machine

open Finset

@[simp] theorem realNum_add (a b : ℝ) : realNum.add a b = a + b := rfl
@[simp] theorem realNum_mul (a b : ℝ) : realNum.mul a b = a * b := rfl
@[simp] theorem realNum_neg (a : ℝ) : realNum.neg a = -a := rfl
@[simp] theorem realNum_ofInt (i : ℤ) : realNum.ofInt i = i := rfl
@[simp] theorem realNum_ofDec (m k : Nat) : realNum.ofDec m k = m / 10 ^ k := rfl
@[simp] theorem realNum_invSqrt2 : realNum.invSqrt2 = 1 / √2 := rfl
@[simp] theorem realNum_ck (k : Nat) : realNum.ck k = Real.cos (k * Real.pi / 16) := rfl

/-! ## The table of constants (R161) -/

/-- The cosine of a whole number of sixteenths of π is even and has period 32. -/
theorem cos_sixteenths_congr {m n : ℤ} (h : m ≡ n [ZMOD 32] ∨ m ≡ -n [ZMOD 32]) :
    Real.cos (m * Real.pi / 16) = Real.cos (n * Real.pi / 16) := by
  have period {a b : ℤ} (hab : a ≡ b [ZMOD 32]) : Real.cos (a * Real.pi / 16) = Real.cos (b * Real.pi / 16) := by
    obtain ⟨k, hk⟩ := hab.dvd
    obtain rfl : b = a + 32 * k := by omega
    rw [← Real.cos_add_int_mul_two_pi _ k]
    push_cast
    ring_nf
  obtain h | h := h
  · exact period h
  · rw [period h, ← Real.cos_neg]
    push_cast
    ring_nf

/-- The entry at (x, u) of R161's table holds a k with `(2x+1)·u = ±k`, half a period away where its sign is minus, modulo
the period 32. -/
theorem cosTable_congr : ∀ x < 8, ∀ u < 8,
    let e := (cosTable.getD x []).getD u (false, 0)
    let n : ℤ := (2 * x + 1) * u - if e.1 then 16 else 0
    n ≡ e.2 [ZMOD 32] ∨ n ≡ -e.2 [ZMOD 32] := by
  decide

/-- Settles O54: each entry of the table has the cosine of its own angle (`cosTable_congr`). -/
theorem realCosineTable : Obligations.RealCosineTable := by
  intro x u hx hu
  have hcos := cos_sixteenths_congr (cosTable_congr x hx u hu)
  unfold cosAt
  generalize (cosTable.getD x []).getD u (false, 0) = e at hcos ⊢
  obtain ⟨minus, k⟩ := e
  cases minus with
  | false =>
    simp only [Bool.false_eq_true, if_false] at hcos ⊢
    push_cast at hcos
    rw [realNum_ck, ← hcos, sub_zero]
  | true =>
    simp only [if_true] at hcos ⊢
    push_cast at hcos
    rw [realNum_neg, realNum_ck, ← hcos, ← Real.cos_add_pi]
    ring_nf

/-! ## Orthogonality of the cosines -/

/-- The cosines of one frequency m sum to 0 over the eight odd places, unless m is a multiple of 16. -/
theorem sum_cos_odd_eq_zero {m : ℝ} (hsin : Real.sin (m * Real.pi / 16) ≠ 0) (hper : Real.sin (m * Real.pi) = 0) :
    ∑ x ∈ range 8, Real.cos ((2 * (x : ℝ) + 1) * m * Real.pi / 16) = 0 := by
  have telescope (x : ℕ) : Real.cos ((2 * (x : ℝ) + 1) * m * Real.pi / 16) * (2 * Real.sin (m * Real.pi / 16)) =
      Real.sin (((x + 1 : ℕ) : ℝ) * (2 * (m * Real.pi / 16))) - Real.sin ((x : ℝ) * (2 * (m * Real.pi / 16))) := by
    rw [Real.sin_sub_sin]
    push_cast
    ring_nf
  have hsum :
      (∑ x ∈ range 8, Real.cos ((2 * (x : ℝ) + 1) * m * Real.pi / 16)) * (2 * Real.sin (m * Real.pi / 16)) = 0 := by
    rw [sum_mul, sum_congr rfl fun x _ => telescope x,
      sum_range_sub fun x : ℕ => Real.sin ((x : ℝ) * (2 * (m * Real.pi / 16)))]
    rw [show ((8 : ℕ) : ℝ) * (2 * (m * Real.pi / 16)) = m * Real.pi by push_cast; ring, hper]
    simp
  exact (mul_eq_zero.1 hsum).resolve_right (mul_ne_zero two_ne_zero hsin)

/-- The same for an integer frequency inside one period, with the value 8 at 0. -/
theorem sum_cos_odd {m : ℤ} (h1 : -16 < m) (h2 : m < 16) :
    ∑ x ∈ range 8, Real.cos ((2 * (x : ℝ) + 1) * m * Real.pi / 16) = if m = 0 then 8 else 0 := by
  split
  case isTrue h0 => simp [h0]
  case isFalse h0 =>
    refine sum_cos_odd_eq_zero (fun hsin => h0 ?_) (Real.sin_int_mul_pi m)
    have hlo : (-16 : ℝ) < m := by exact_mod_cast h1
    have hhi : (m : ℝ) < 16 := by exact_mod_cast h2
    have hm := (Real.sin_eq_zero_iff_of_lt_of_lt (by nlinarith [Real.pi_pos]) (by nlinarith [Real.pi_pos])).1 hsin
    have : (m : ℝ) = 0 := by simpa [Real.pi_ne_zero] using hm
    exact_mod_cast this

/-- Two columns of the table are orthogonal; a column has norm 8 at frequency 0 and 4 elsewhere. -/
theorem sum_cosAt_mul_cosAt {u v : Nat} (hu : u < 8) (hv : v < 8) :
    ∑ x ∈ range 8, cosAt realNum x u * cosAt realNum x v = if u = v then (if u = 0 then 8 else 4) else 0 := by
  have product (x : ℕ) (hx : x ∈ range 8) : cosAt realNum x u * cosAt realNum x v =
      (Real.cos ((2 * (x : ℝ) + 1) * ((u - v : ℤ) : ℝ) * Real.pi / 16)
        + Real.cos ((2 * (x : ℝ) + 1) * ((u + v : ℤ) : ℝ) * Real.pi / 16)) / 2 := by
    rw [realCosineTable x u (mem_range.1 hx) hu, realCosineTable x v (mem_range.1 hx) hv]
    generalize (2 * (x : ℝ) + 1) = odd
    have hdiff : odd * ((u - v : ℤ) : ℝ) * Real.pi / 16 = odd * u * Real.pi / 16 - odd * v * Real.pi / 16 := by
      push_cast
      ring
    have hsum : odd * ((u + v : ℤ) : ℝ) * Real.pi / 16 = odd * u * Real.pi / 16 + odd * v * Real.pi / 16 := by
      push_cast
      ring
    rw [hdiff, hsum, Real.cos_sub, Real.cos_add]
    ring
  rw [sum_congr rfl product, ← sum_div, sum_add_distrib, sum_cos_odd (by omega) (by omega),
    sum_cos_odd (by omega) (by omega)]
  by_cases huv : u = v
  · subst huv
    have hsum : (u + u : ℤ) = 0 ↔ u = 0 := by omega
    by_cases h0 : u = 0 <;> norm_num [h0, hsum]
  · have hdiff : (u - v : ℤ) ≠ 0 := by omega
    have hsum : (u + v : ℤ) ≠ 0 := by omega
    simp [huv, hdiff, hsum]

/-! ## The transforms as matrix products -/

/-- The scale `1/2·C(u)` of basis vector u: `0.25·C(u)·C(v)` is the product of two of them (R160, R162). -/
noncomputable def dctScale (u : Nat) : ℝ := dctC realNum u / 2

/-- The basis of the transform: row u holds the scaled cosines of frequency u. -/
noncomputable def dctBasis : Matrix (Fin 8) (Fin 8) ℝ := Matrix.of fun u x => dctScale u * cosAt realNum x u

/-- A grid as a matrix. -/
def gridMatrix (g : GridOf ℝ) : Matrix (Fin 8) (Fin 8) ℝ := Matrix.of fun i j => gridAt g i j

theorem gridMatrix_injective : Function.Injective gridMatrix := fun _ _ h =>
  grid_ext fun i j hi hj => congrFun (congrFun h ⟨i, hi⟩) ⟨j, hj⟩

theorem dctScale_sq (u : Nat) : dctScale u * dctScale u = if u = 0 then 1 / 8 else 1 / 4 := by
  unfold dctScale dctC
  split
  · rw [realNum_invSqrt2]
    have h := Real.mul_self_sqrt (zero_le_two (α := ℝ))
    field_simp
    linarith
  · norm_num

/-- The basis is orthonormal. -/
theorem dctBasis_mul_transpose : dctBasis * dctBasis.transpose = 1 := by
  ext u v
  rw [Matrix.mul_apply, Matrix.one_apply]
  calc ∑ x, dctBasis u x * dctBasis.transpose x v
      = dctScale u * dctScale v * ∑ x : Fin 8, cosAt realNum x u * cosAt realNum x v := by
        rw [mul_sum]
        exact sum_congr rfl fun x _ => by simp only [dctBasis, Matrix.transpose_apply, Matrix.of_apply]; ring
    _ = dctScale u * dctScale v * if u = v then (if (u : ℕ) = 0 then 8 else 4) else 0 := by
        rw [← Finset.sum_range fun x => cosAt realNum x u * cosAt realNum x v, sum_cosAt_mul_cosAt u.2 v.2]
        simp only [Fin.ext_iff]
    _ = if u = v then 1 else 0 := by
        split_ifs with huv h0
        · rw [← huv, dctScale_sq, if_pos h0]
          norm_num
        · rw [← huv, dctScale_sq, if_neg h0]
          norm_num
        · ring

theorem transpose_mul_dctBasis : dctBasis.transpose * dctBasis = 1 := mul_eq_one_comm.1 dctBasis_mul_transpose

theorem realNum_sum (xs : List ℝ) : realNum.sum xs = xs.sum := by
  rw [List.sum_eq_foldl, Num.sum, realNum_ofInt, Int.cast_zero]
  rfl

/-- Over the reals a sum over the positions of a grid is a double sum. -/
theorem realNum_sum_rowMajor (f : Nat → Nat → ℝ) :
    realNum.sum ((rowMajor 8 8).map fun p => f p.1 p.2) = ∑ x : Fin 8, ∑ y : Fin 8, f x y := by
  have hrange (g : ℕ → ℝ) : ((List.range 8).map g).sum = ∑ k : Fin 8, g k :=
    (show _ = ∑ k ∈ range 8, g k from rfl).trans (Finset.sum_range g)
  simp only [realNum_sum, rowMajor, List.flatMap_def, List.map_flatten, List.sum_flatten, List.map_map,
    Function.comp_def, hrange]

/-- The sample (u, v) of the forward transform over the reals (R162). -/
theorem gridAt_dctForward_real (g : GridOf ℝ) {u v : Nat} (hu : u < 8) (hv : v < 8) :
    gridAt (dctForward realNum g) u v =
      dctScale u * dctScale v * ∑ x : Fin 8, ∑ y : Fin 8, gridAt g x y * cosAt realNum x u * cosAt realNum y v := by
  rw [dctForward, gridAt_gridOf _ hu hv, dctForwardAt]
  simp only [realNum_mul, realNum_ofDec, dctScale]
  rw [realNum_sum_rowMajor fun x y => gridAt g x y * cosAt realNum x u * cosAt realNum y v]
  push_cast
  ring

/-- The sample (x, y) of the inverse transform over the reals (R163). -/
theorem gridAt_dctInverse_real (F : GridOf ℝ) {x y : Nat} (hx : x < 8) (hy : y < 8) :
    gridAt (dctInverse realNum F) x y =
      ∑ u : Fin 8, ∑ v : Fin 8, dctScale u * dctScale v * gridAt F u v * cosAt realNum x u * cosAt realNum y v := by
  rw [dctInverse, gridAt_gridOf _ hx hy, dctInverseAt]
  simp only [realNum_mul, realNum_ofDec, dctScale]
  rw [realNum_sum_rowMajor fun u v =>
    dctC realNum u * dctC realNum v * gridAt F u v * cosAt realNum x u * cosAt realNum y v]
  simp only [mul_sum]
  refine sum_congr rfl fun u _ => sum_congr rfl fun v _ => ?_
  push_cast
  ring

/-- The forward transform changes to the basis on both sides. -/
theorem gridMatrix_dctForward (g : GridOf ℝ) :
    gridMatrix (dctForward realNum g) = dctBasis * gridMatrix g * dctBasis.transpose := by
  ext u v
  simp only [gridMatrix, dctBasis, Matrix.mul_apply, Matrix.transpose_apply, Matrix.of_apply, sum_mul]
  rw [gridAt_dctForward_real g u.2 v.2, mul_sum, sum_comm]
  simp only [mul_sum]
  exact sum_congr rfl fun y _ => sum_congr rfl fun x _ => by ring

/-- The inverse transform changes back. -/
theorem gridMatrix_dctInverse (F : GridOf ℝ) :
    gridMatrix (dctInverse realNum F) = dctBasis.transpose * gridMatrix F * dctBasis := by
  ext x y
  simp only [gridMatrix, dctBasis, Matrix.mul_apply, Matrix.transpose_apply, Matrix.of_apply, sum_mul]
  rw [gridAt_dctInverse_real F x.2 y.2, sum_comm]
  exact sum_congr rfl fun v _ => sum_congr rfl fun u _ => by ring

/-! ## Round trips and energy (R164 (a)) -/

theorem dctInverse_dctForward (g : GridOf ℝ) : dctInverse realNum (dctForward realNum g) = g :=
  gridMatrix_injective <| by
    rw [gridMatrix_dctInverse, gridMatrix_dctForward]
    calc dctBasis.transpose * (dctBasis * gridMatrix g * dctBasis.transpose) * dctBasis
        = (dctBasis.transpose * dctBasis) * gridMatrix g * (dctBasis.transpose * dctBasis) := by
          simp only [Matrix.mul_assoc]
      _ = gridMatrix g := by rw [transpose_mul_dctBasis, Matrix.one_mul, Matrix.mul_one]

theorem dctForward_dctInverse (F : GridOf ℝ) : dctForward realNum (dctInverse realNum F) = F :=
  gridMatrix_injective <| by
    rw [gridMatrix_dctForward, gridMatrix_dctInverse]
    calc dctBasis * (dctBasis.transpose * gridMatrix F * dctBasis) * dctBasis.transpose
        = (dctBasis * dctBasis.transpose) * gridMatrix F * (dctBasis * dctBasis.transpose) := by
          simp only [Matrix.mul_assoc]
      _ = gridMatrix F := by rw [dctBasis_mul_transpose, Matrix.one_mul, Matrix.mul_one]

/-- The sum of squares of a grid is the trace of its Gram matrix. -/
theorem gridEnergy_eq_trace (g : GridOf ℝ) :
    ((gridSamples g).map fun v => v ^ 2).sum = (gridMatrix g * (gridMatrix g).transpose).trace := by
  have hplaces : (List.range 64).map (fun k => (k / 8, k % 8)) = rowMajor 8 8 := by decide
  have hsamples : (gridSamples g).map (fun v => v ^ 2) = (rowMajor 8 8).map fun p => gridAt g p.1 p.2 ^ 2 := by
    rw [gridSamples_eq, ← hplaces, List.map_map, List.map_map]
    rfl
  have hsum : ((gridSamples g).map fun v => v ^ 2).sum = ∑ x : Fin 8, ∑ y : Fin 8, gridAt g x y ^ 2 := by
    rw [hsamples, ← realNum_sum, realNum_sum_rowMajor fun x y => gridAt g x y ^ 2]
  rw [hsum]
  simp only [Matrix.trace, Matrix.diag_apply, Matrix.mul_apply, Matrix.transpose_apply, gridMatrix, Matrix.of_apply,
    sq]

theorem gridEnergy_dctForward (g : GridOf ℝ) :
    ((gridSamples (dctForward realNum g)).map fun v => v ^ 2).sum = ((gridSamples g).map fun v => v ^ 2).sum := by
  rw [gridEnergy_eq_trace, gridEnergy_eq_trace, gridMatrix_dctForward]
  generalize gridMatrix g = G
  calc (dctBasis * G * dctBasis.transpose * (dctBasis * G * dctBasis.transpose).transpose).trace
      = (dctBasis * (G * (dctBasis.transpose * dctBasis) * G.transpose * dctBasis.transpose)).trace := by
        simp only [Matrix.transpose_mul, Matrix.transpose_transpose, Matrix.mul_assoc]
    _ = (G * (dctBasis.transpose * dctBasis) * G.transpose * (dctBasis.transpose * dctBasis)).trace := by
        rw [Matrix.trace_mul_comm]
        simp only [Matrix.mul_assoc]
    _ = (G * G.transpose).trace := by rw [transpose_mul_dctBasis, Matrix.mul_one, Matrix.mul_one]

/-! ## The constant block (R164 (b)) -/

/-- A constant block has its DC coefficient alone: every other frequency sums to 0. -/
theorem dctForward_constant (A : ℝ) {u v : Nat} (hu : u < 8) (hv : v < 8) :
    gridAt (dctForward realNum (gridOf fun _ _ => A)) u v = if u = 0 ∧ v = 0 then 8 * A else 0 := by
  have hcos {k : Nat} (hk : k < 8) : ∑ x : Fin 8, cosAt realNum x k = if k = 0 then 8 else 0 := by
    have h := sum_cosAt_mul_cosAt hk (show 0 < 8 by omega)
    have hone (x : ℕ) (hx : x ∈ range 8) : cosAt realNum x 0 = 1 := by
      simp [realCosineTable x 0 (mem_range.1 hx) (by omega)]
    rw [sum_congr rfl fun x hx => by rw [hone x hx, mul_one], Finset.sum_range] at h
    rw [h]
    split_ifs <;> rfl
  have hsum : ∑ x : Fin 8, ∑ y : Fin 8, gridAt (gridOf fun _ _ => A) x y * cosAt realNum x u * cosAt realNum y v
      = A * (∑ x : Fin 8, cosAt realNum x u) * ∑ y : Fin 8, cosAt realNum y v := by
    simp only [mul_sum, sum_mul]
    rw [sum_comm]
    refine sum_congr rfl fun y _ => sum_congr rfl fun x _ => ?_
    rw [gridAt_gridOf _ x.2 y.2]
  rw [gridAt_dctForward_real _ hu hv, hsum, hcos hu, hcos hv]
  by_cases h : u = 0 ∧ v = 0
  · obtain ⟨rfl, rfl⟩ := h
    simp only [dctScale_sq, if_true, and_self]
    ring
  · rw [if_neg h]
    obtain hu0 | hv0 := not_and_or.1 h
    · simp [hu0]
    · simp [hv0]

end Sys2Proof.Machine
end

section
/-! PROOF. The binary64 transforms beside the exact ones (R8, R164): a bound on the distance of a sample from a real number
that every operation keeps, carried through the sums of R162 and R163. -/

namespace Sys2Proof.Machine

/-- The finite sample x stands for the real r: r is at most B, and x is within n units of `B·1e-15` of it. A unit covers the
rounding of one operation on a value of size B, which is a 2^53rd of it, with room for the products of earlier errors. -/
structure Tracks (B n : Nat) (x : Sample) (r : ℝ) : Prop where
  finite : Binary64.isFinite x = true
  bound : |r| ≤ B
  error : |sampleReal x - r| ≤ B * n / 10 ^ 15

namespace Tracks

section
variable {B B₁ B₂ n n₁ n₂ : Nat} {x y : Sample} {r s : ℝ}

/-! ## One operation -/

theorem weaken (h : Tracks B₁ n₁ x r) (hB : B₁ ≤ B) (hn : n₁ ≤ n) : Tracks B n x r where
  finite := h.finite
  bound := h.bound.trans (Nat.cast_le.2 hB)
  error := h.error.trans (by gcongr)

/-- A finite sample stands for its own value. -/
theorem of_sampleReal (hx : Binary64.isFinite x = true) (hB : |sampleReal x| ≤ B) : Tracks B 0 x (sampleReal x) :=
  ⟨hx, hB, by simp⟩

/-- A sample that is the rounding of e, where e is within `n + 1/2` units of r: rounding takes less than the other half. -/
theorem of_rounded {e : ℝ}
    (hround : |e| ≤ 2 ^ 1000 → Binary64.isFinite x = true ∧ |sampleReal x - e| ≤ |e| / 2 ^ 53 + 1 / 2 ^ 1075)
    (hr : |r| ≤ B) (he : |e - r| ≤ B * (n + 1 / 2) / 10 ^ 15) (h1 : 1 ≤ B) (hB : B ≤ 2 ^ 100) (hn : n ≤ 1000) :
    Tracks B (n + 1) x r := by
  have h1' : (1 : ℝ) ≤ B := by exact_mod_cast h1
  have hB' : (B : ℝ) ≤ 2 ^ 100 := by exact_mod_cast hB
  have hn' : (n : ℝ) ≤ 1000 := by exact_mod_cast hn
  have hsmall : (B : ℝ) * (n + 1 / 2) / 10 ^ 15 ≤ B := by
    rw [div_le_iff₀ (by positivity)]
    gcongr
    linarith
  have habs : |e| ≤ 2 * B := by
    have := abs_sub_abs_le_abs_sub e r
    linarith
  have hlarge : |e| ≤ 2 ^ 1000 :=
    calc |e| ≤ 2 ^ 101 := by linarith
      _ ≤ 2 ^ 1000 := pow_le_pow_right₀ (by norm_num) (by norm_num)
  obtain ⟨hfinite, hw⟩ := hround hlarge
  refine ⟨hfinite, hr, ?_⟩
  have hrel : |e| / 2 ^ 53 ≤ 2 * B / 2 ^ 53 := by gcongr
  have htiny : (1 : ℝ) / 2 ^ 1075 ≤ 1 / 2 ^ 60 :=
    one_div_le_one_div_of_le (by positivity) (pow_le_pow_right₀ (by norm_num) (by norm_num))
  have htri := abs_sub_le (sampleReal x) e r
  generalize (1 : ℝ) / 2 ^ 1075 = tiny at hw htiny
  push_cast
  linarith

theorem neg (h : Tracks B n x r) : Tracks B n (Binary64.neg x) (-r) := by
  obtain ⟨hfinite, hvalue⟩ := Binary64.neg_exact x
  refine ⟨hfinite.trans h.finite, by rw [abs_neg]; exact h.bound, ?_⟩
  rw [hvalue, neg_sub_neg, abs_sub_comm]
  exact h.error

theorem add (hx : Tracks B₁ n₁ x r) (hy : Tracks B₂ n₂ y s) (h12 : n₂ ≤ n₁) (h1 : 1 ≤ B₁ + B₂) (hB : B₁ + B₂ ≤ 2 ^ 100)
    (hn : n₁ ≤ 1000) : Tracks (B₁ + B₂) (n₁ + 1) (Binary64.add x y) (r + s) := by
  refine of_rounded (Binary64.add_within hx.finite hy.finite) ?_ ?_ h1 hB hn
  · push_cast
    exact (abs_add_le r s).trans (add_le_add hx.bound hy.bound)
  · have hsum : |sampleReal x + sampleReal y - (r + s)| ≤ |sampleReal x - r| + |sampleReal y - s| := by
      rw [add_sub_add_comm]
      exact abs_add_le _ _
    have hy' := (hy.weaken le_rfl h12).error
    have hhalf : (0 : ℝ) ≤ ((B₁ + B₂ : Nat) : ℝ) * (1 / 2) / 10 ^ 15 := by positivity
    have hx' := hx.error
    push_cast at hhalf ⊢
    linarith

theorem mul (hx : Tracks B₁ n₁ x r) (hy : Tracks B₂ n₂ y s) (h1 : 1 ≤ B₁ * B₂) (hB : B₁ * B₂ ≤ 2 ^ 100)
    (hn : n₁ + n₂ ≤ 1000) : Tracks (B₁ * B₂) (n₁ + n₂ + 1) (Binary64.mul x y) (r * s) := by
  refine of_rounded (Binary64.mul_within hx.finite hy.finite) ?_ ?_ h1 hB hn
  · push_cast
    rw [abs_mul]
    exact mul_le_mul hx.bound hy.bound (abs_nonneg _) (Nat.cast_nonneg _)
  · have hsplit : sampleReal x * sampleReal y - r * s =
        (sampleReal x - r) * (sampleReal y - s) + (r * (sampleReal y - s) + (sampleReal x - r) * s) := by ring
    have hcross : |(sampleReal x - r) * (sampleReal y - s)| ≤ B₁ * n₁ / 10 ^ 15 * (B₂ * n₂ / 10 ^ 15) := by
      rw [abs_mul]
      exact mul_le_mul hx.error hy.error (abs_nonneg _) (by positivity)
    have hleft : |r * (sampleReal y - s)| ≤ B₁ * (B₂ * n₂ / 10 ^ 15) := by
      rw [abs_mul]
      exact mul_le_mul hx.bound hy.error (abs_nonneg _) (by positivity)
    have hright : |(sampleReal x - r) * s| ≤ B₁ * n₁ / 10 ^ 15 * B₂ := by
      rw [abs_mul]
      exact mul_le_mul hx.error hy.bound (abs_nonneg _) (by positivity)
    have hnn : (n₁ : ℝ) * n₂ / 10 ^ 15 ≤ 1 / 2 := by
      have hprod : n₁ * n₂ ≤ 1000 * 1000 := Nat.mul_le_mul (by omega) (by omega)
      have : (n₁ : ℝ) * n₂ ≤ 1000 * 1000 := by exact_mod_cast hprod
      linarith
    rw [hsplit]
    refine (abs_add_le _ _).trans ((add_le_add hcross ((abs_add_le _ _).trans (add_le_add hleft hright))).trans ?_)
    push_cast
    calc (B₁ : ℝ) * n₁ / 10 ^ 15 * (B₂ * n₂ / 10 ^ 15) + (B₁ * (B₂ * n₂ / 10 ^ 15) + B₁ * n₁ / 10 ^ 15 * B₂)
        = B₁ * B₂ * (n₁ + n₂ + (n₁ : ℝ) * n₂ / 10 ^ 15) / 10 ^ 15 := by ring
      _ ≤ (B₁ : ℝ) * B₂ * (n₁ + n₂ + 1 / 2) / 10 ^ 15 := by gcongr

end

/-! ## A sum in list order -/

/-- A sum of terms each within n units gains one unit a term (R13). -/
theorem sum {ι : Type} {B n : Nat} {f : ι → Sample} {g : ι → ℝ} (l : List ι) (h : ∀ p ∈ l, Tracks B n (f p) (g p))
    (h1 : 1 ≤ B) (hB : l.length * B ≤ 2 ^ 100) (hn : n + l.length ≤ 1000) :
    Tracks (l.length * B) (n + l.length) (Binary64.num.sum (l.map f)) (realNum.sum (l.map g)) := by
  induction l using List.reverseRecOn with
  | nil =>
    have hzero : sampleReal (Binary64.ofInt 0) = 0 := Binary64.sampleReal_of_isZero (by decide +kernel)
    change Tracks (0 * B) (n + 0) (Binary64.ofInt 0) ((0 : ℤ) : ℝ)
    rw [Int.cast_zero, ← hzero]
    exact (of_sampleReal (B := 0) (by decide +kernel) (by simp [hzero])).weaken (Nat.zero_le _) (Nat.zero_le _)
  | append_singleton l p ih =>
    rw [List.length_append, List.length_singleton] at hB hn ⊢
    rw [Nat.add_mul, Nat.one_mul] at hB ⊢
    have hl := ih (fun q hq => h q (List.mem_append_left _ hq)) (by omega) (by omega)
    have hp := h p (by simp)
    simp only [Num.sum, List.map_append, List.map_cons, List.map_nil, List.foldl_append, List.foldl_cons, List.foldl_nil]
    exact hl.add hp (Nat.le_add_right _ _) (by omega) hB (by omega)

end Tracks

/-! ## The constants of the transforms (R160, R161) -/

theorem tracks_ck {k : Nat} (hk : k < 8) : Tracks 1 1 (Binary64.ck k) (Real.cos (k * Real.pi / 16)) := by
  obtain ⟨hfinite, herror⟩ := Binary64.ck_within hk
  exact ⟨hfinite, by exact_mod_cast Real.abs_cos_le_one _, by simpa using herror⟩

theorem tracks_cosAt {x u : Nat} (hx : x < 8) (hu : u < 8) : Tracks 1 1 (cosAt Binary64.num x u) (cosAt realNum x u) := by
  have hindex : ∀ x < 8, ∀ u < 8, ((cosTable.getD x []).getD u (false, 0)).2 < 8 := by decide
  have hck := tracks_ck (hindex x hx u hu)
  unfold cosAt
  generalize (cosTable.getD x []).getD u (false, 0) = e at hck
  obtain ⟨minus, k⟩ := e
  cases minus with
  | false => exact hck
  | true => exact hck.neg

/-- `C(k)` is `c4` or `c0`: `1/√2` is the cosine of π/4. -/
theorem tracks_dctC (k : Nat) : Tracks 1 1 (dctC Binary64.num k) (dctC realNum k) := by
  unfold dctC
  split
  · have hcos : realNum.invSqrt2 = Real.cos ((4 : Nat) * Real.pi / 16) := by
      rw [realNum_invSqrt2, show ((4 : Nat) : ℝ) * Real.pi / 16 = Real.pi / 4 by push_cast; ring, Real.cos_pi_div_four,
        ← Real.sqrt_div_self']
    rw [hcos]
    exact tracks_ck (k := 4) (by omega)
  · have hcos : realNum.ofInt 1 = Real.cos ((0 : Nat) * Real.pi / 16) := by simp
    rw [hcos]
    exact tracks_ck (k := 0) (by omega)

theorem tracks_quarter : Tracks 1 1 (Binary64.num.ofDec 25 2) (realNum.ofDec 25 2) := by
  have habs : |realNum.ofDec 25 2| = realNum.ofDec 25 2 := by norm_num [abs_of_nonneg]
  refine Tracks.of_rounded (n := 0) (e := realNum.ofDec 25 2) (fun h => ?_) ?_ (by norm_num) le_rfl
    (by norm_num) (by norm_num)
  · rw [habs] at h ⊢
    exact Binary64.ofDec_within 25 2 h
  · rw [habs]
    norm_num

/-! ## The transforms -/

section
variable {B n : Nat} {g : Grid} {G : GridOf ℝ}

/-- A forward transform multiplies the bound by 64 and adds 74 units: 4 for the products of a term, 64 for the sum, 6 for
the scale (R162). -/
theorem tracks_dctForward (h : ∀ i j, i < 8 → j < 8 → Tracks B n (gridAt g i j) (gridAt G i j)) (h1 : 1 ≤ B)
    (hB : B ≤ 2 ^ 64) (hn : n ≤ 500) {u v : Nat} (hu : u < 8) (hv : v < 8) :
    Tracks (64 * B) (n + 74) (gridAt (dctForward Binary64.num g) u v) (gridAt (dctForward realNum G) u v) := by
  rw [dctForward, gridAt_gridOf _ hu hv, dctForward, gridAt_gridOf _ hu hv]
  have hterm : ∀ p ∈ rowMajor 8 8, Tracks B (n + 4)
      (Binary64.mul (Binary64.mul (gridAt g p.1 p.2) (cosAt Binary64.num p.1 u)) (cosAt Binary64.num p.2 v))
      (gridAt G p.1 p.2 * cosAt realNum p.1 u * cosAt realNum p.2 v) := fun p hp => by
    obtain ⟨hx, hy⟩ := (mem_rowMajor 8 8 p).1 hp
    have hrow := (h p.1 p.2 hx hy).mul (tracks_cosAt hx hu) (by omega) (by omega) (by omega)
    exact (hrow.mul (tracks_cosAt hy hv) (by omega) (by omega) (by omega)).weaken (by omega) (by omega)
  have hsum : Tracks (64 * B) (n + 4 + 64) _ _ :=
    Tracks.sum (rowMajor 8 8) hterm h1 (by change 64 * B ≤ _; omega) (by change n + 4 + 64 ≤ _; omega)
  have hscale : Tracks 1 5 _ _ :=
    (tracks_quarter.mul (tracks_dctC u) (by norm_num) (by norm_num) (by norm_num)).mul (tracks_dctC v)
      (by norm_num) (by norm_num) (by norm_num)
  exact (hscale.mul hsum (by omega) (by omega) (by omega)).weaken (by omega) (by omega)

/-- An inverse transform as well: 8 units for the products of a term, 64 for the sum, 2 for the scale (R163). -/
theorem tracks_dctInverse (h : ∀ i j, i < 8 → j < 8 → Tracks B n (gridAt g i j) (gridAt G i j)) (h1 : 1 ≤ B)
    (hB : B ≤ 2 ^ 64) (hn : n ≤ 500) {x y : Nat} (hx : x < 8) (hy : y < 8) :
    Tracks (64 * B) (n + 74) (gridAt (dctInverse Binary64.num g) x y) (gridAt (dctInverse realNum G) x y) := by
  rw [dctInverse, gridAt_gridOf _ hx hy, dctInverse, gridAt_gridOf _ hx hy]
  have hterm : ∀ p ∈ rowMajor 8 8, Tracks B (n + 8)
      (Binary64.mul (Binary64.mul (Binary64.mul
        (Binary64.mul (dctC Binary64.num p.1) (dctC Binary64.num p.2)) (gridAt g p.1 p.2))
        (cosAt Binary64.num x p.1)) (cosAt Binary64.num y p.2))
      (dctC realNum p.1 * dctC realNum p.2 * gridAt G p.1 p.2 * cosAt realNum x p.1
        * cosAt realNum y p.2) := fun p hp => by
    obtain ⟨hu, hv⟩ := (mem_rowMajor 8 8 p).1 hp
    have hscale : Tracks 1 3 _ _ := (tracks_dctC p.1).mul (tracks_dctC p.2) (by norm_num) (by norm_num) (by norm_num)
    have hscaled := hscale.mul (h p.1 p.2 hu hv) (by omega) (by omega) (by omega)
    have hrow := hscaled.mul (tracks_cosAt hx hu) (by omega) (by omega) (by omega)
    exact (hrow.mul (tracks_cosAt hy hv) (by omega) (by omega) (by omega)).weaken (by omega) (by omega)
  have hsum : Tracks (64 * B) (n + 8 + 64) _ _ :=
    Tracks.sum (rowMajor 8 8) hterm h1 (by change 64 * B ≤ _; omega) (by change n + 8 + 64 ≤ _; omega)
  exact (tracks_quarter.mul hsum (by omega) (by omega) (by omega)).weaken (by omega) (by omega)

end

/-! ## The statements -/

/-- The values of a grid. -/
noncomputable def realGrid (g : Grid) : GridOf ℝ := gridOf fun i j => sampleReal (gridAt g i j)

theorem gridAt_realGrid (g : Grid) {i j : Nat} (hi : i < 8) (hj : j < 8) :
    gridAt (realGrid g) i j = sampleReal (gridAt g i j) := gridAt_gridOf _ hi hj

theorem tracks_realGrid {g : Grid} (hg : FiniteGrid g) {B : Nat}
    (hB : ∀ i j, i < 8 → j < 8 → |sampleReal (gridAt g i j)| ≤ B) (i j : Nat) (hi : i < 8) (hj : j < 8) :
    Tracks B 0 (gridAt g i j) (gridAt (realGrid g) i j) := by
  rw [gridAt_realGrid g hi hj]
  exact Tracks.of_sampleReal (hg i hi j hj) (hB i j hi hj)

/-- Settles O55: over the reals the transforms are an orthonormal change of basis; in binary64 the round trip stands for the
exact one, 148 units at a bound of `64·64·256`. -/
theorem realDctRoundTrip : Obligations.RealDctRoundTrip := by
  refine ⟨fun g => ⟨dctInverse_dctForward g, dctForward_dctInverse g, gridEnergy_dctForward g⟩,
    fun g hg hbound i j hi hj => ?_⟩
  have hforward (u v : Nat) (hu : u < 8) (hv : v < 8) :=
    tracks_dctForward (tracks_realGrid (B := 256) hg (by exact_mod_cast hbound)) (by norm_num) (by norm_num) (by norm_num)
      hu hv
  have hround := tracks_dctInverse hforward (by norm_num) (by norm_num) (by norm_num) hi hj
  rw [dctInverse_dctForward, gridAt_realGrid g hi hj] at hround
  exact ⟨hround.finite, hround.error.trans (by norm_num)⟩

/-- Settles O56: `dctForward_constant`, and the binary64 transform stands for it, 74 units at a bound of `64·256`. -/
theorem realDctOfConstantBlock : Obligations.RealDctOfConstantBlock := by
  refine ⟨fun A u v hu hv => dctForward_constant A hu hv, fun A u v hA hbound hu hv => ?_⟩
  have hblock (i j : Nat) (hi : i < 8) (hj : j < 8) :
      Tracks 256 0 (gridAt (gridOf fun _ _ => A) i j) (gridAt (gridOf fun _ _ => sampleReal A) i j) := by
    rw [gridAt_gridOf _ hi hj, gridAt_gridOf _ hi hj]
    exact Tracks.of_sampleReal hA (by exact_mod_cast hbound)
  have htracks := tracks_dctForward hblock (by norm_num) (by norm_num) (by norm_num) hu hv
  rw [dctForward_constant _ hu hv] at htracks
  exact ⟨htracks.finite, htracks.error.trans (by norm_num)⟩

end Sys2Proof.Machine
end

section
/-! PROOF. The Haar wavelet over any numbers (R170 to R185): the line pair, the passes and levels over a plane, the level
geometry, and the statements of HAAR8.F, HAAR8.I, DWT.LEV, DWT.F and DWT.I. -/

namespace Sys2Proof.Machine

/-! ## The line pair (R170, R171) -/

section
variable {S : Type} (N : Num S)

theorem haarLineForward_average {n k : Nat} (hk : k < n / 2) (x : Nat → S) :
    haarLineForward N n x k = N.div (N.add (x (2 * k)) (x (2 * k + 1))) N.sqrt2 := if_pos hk

theorem haarLineForward_detail (n k : Nat) (x : Nat → S) :
    haarLineForward N n x (n / 2 + k) = N.div (N.sub (x (2 * k)) (x (2 * k + 1))) N.sqrt2 := by
  simp [haarLineForward]

theorem haarLineInverse_even (n k : Nat) (o : Nat → S) :
    haarLineInverse N n o (2 * k) = N.div (N.add (o k) (o (n / 2 + k))) N.sqrt2 := by
  simp [haarLineInverse]

theorem haarLineInverse_odd (n k : Nat) (o : Nat → S) :
    haarLineInverse N n o (2 * k + 1) = N.div (N.sub (o k) (o (n / 2 + k))) N.sqrt2 := by
  have hodd : (2 * k + 1) % 2 ≠ 0 := by omega
  have hhalf : (2 * k + 1) / 2 = k := by omega
  simp only [haarLineInverse, if_neg hodd, hhalf]

/-- The inverse of a line of length n reads its first n elements only. -/
theorem haarLineInverse_congr {n k : Nat} {o o' : Nat → S} (h : ∀ j, j < n → o j = o' j) (hk : k < n) :
    haarLineInverse N n o k = haarLineInverse N n o' k := by
  simp only [haarLineInverse, h (k / 2) (by omega), h (n / 2 + k / 2) (by omega)]

end

/-! ## Passes and levels over a plane (R174, R182, R183) -/

section
variable {S : Type} {f : Nat → (Nat → S) → Nat → S} {nr nc r c : Nat} (W : Plane S)

theorem rowPass_inside (h : r < nr ∧ c < nc) : (rowPass f nr nc W).get r c = f nc (fun k => W.get r k) c := if_pos h

theorem rowPass_outside (h : ¬ (r < nr ∧ c < nc)) : (rowPass f nr nc W).get r c = W.get r c := if_neg h

theorem colPass_inside (h : r < nr ∧ c < nc) : (colPass f nr nc W).get r c = f nr (fun k => W.get k c) r := if_pos h

theorem colPass_outside (h : ¬ (r < nr ∧ c < nc)) : (colPass f nr nc W).get r c = W.get r c := if_neg h

variable (N : Num S) (h w : Nat)

/-- Tabulating between the passes changes nothing. -/
theorem levelForward_eq : levelForward N h w nr nc W =
    colPass (haarLineForward N) nr nc (rowPass (haarLineForward N) nr nc W) := by
  simp only [levelForward, tabulate_eq]

theorem levelInverse_eq : levelInverse N h w nr nc W =
    rowPass (haarLineInverse N) nr nc (colPass (haarLineInverse N) nr nc W) := by
  simp only [levelInverse, tabulate_eq]

theorem levelForward_outside (ho : ¬ (r < nr ∧ c < nc)) : (levelForward N h w nr nc W).get r c = W.get r c := by
  rw [levelForward_eq, colPass_outside _ ho, rowPass_outside _ ho]

theorem levelInverse_outside (ho : ¬ (r < nr ∧ c < nc)) : (levelInverse N h w nr nc W).get r c = W.get r c := by
  rw [levelInverse_eq, rowPass_outside _ ho, colPass_outside _ ho]

end

/-! ## Level geometry (R173) -/

theorem levelEven_eq (d l : Nat) : levelEven d l = levelDim d l - levelDim d l % 2 := rfl

theorem levelDim_succ (d l : Nat) : levelDim d (l + 1) = levelEven d l / 2 := rfl

theorem levelEven_mod_two (d l : Nat) : levelEven d l % 2 = 0 := by
  rw [levelEven_eq]
  omega

theorem levelDim_antitone (d : Nat) : Antitone (levelDim d) :=
  antitone_nat_of_succ_le fun l => by
    rw [levelDim_succ, levelEven_eq]
    omega

/-- Every transformed region lies inside R(0). -/
theorem levelEven_le_zero (d l : Nat) : levelEven d l ≤ levelEven d 0 := by
  have h := levelDim_antitone d (Nat.zero_le l)
  rw [levelEven_eq, levelEven_eq]
  omega

theorem levelEven_le (d l : Nat) : levelEven d l ≤ d :=
  (levelEven_le_zero d l).trans (Nat.sub_le d (d % 2))

/-! ## The levels of the full-image form (R182, R183) -/

section
variable {S : Type} (N : Num S) (w h l : Nat) (W : Plane S)

theorem dwtForward_succ : dwtForward N w h (l + 1) W =
    colPass (haarLineForward N) (levelEven h l) (levelEven w l)
      (rowPass (haarLineForward N) (levelEven h l) (levelEven w l) (dwtForward N w h l W)) :=
  levelForward_eq _ N h w

theorem dwtInverse_succ : dwtInverse N w h (l + 1) W =
    dwtInverse N w h l (rowPass (haarLineInverse N) (levelEven h l) (levelEven w l)
      (colPass (haarLineInverse N) (levelEven h l) (levelEven w l) W)) :=
  congrArg (dwtInverse N w h l) (levelInverse_eq W N h w)

end

/-! ## Samples that the full-image form only copies (R182, R183) -/

/-- Where `f` transforms nothing it copies: with no levels, and outside R(0). -/
def CopiesUntransformed {S : Type} (f : Nat → Nat → Nat → Plane S → Plane S) : Prop :=
  ∀ w h L W row col, transformed w h L row col = false → (f w h L W).get row col = W.get row col

theorem transformed_eq_false (w h L row col : Nat) :
    transformed w h L row col = false ↔ L = 0 ∨ levelEven h 0 ≤ row ∨ levelEven w 0 ≤ col := by
  simp only [transformed, Bool.and_eq_false_iff, decide_eq_false_iff_not]
  omega

section
variable {S : Type} (N : Num S)

/-- A position that is not transformed with l + 1 levels is in no region, and is not transformed with l levels. -/
theorem not_transformed_succ {w h l row col : Nat} (ht : transformed w h (l + 1) row col = false) :
    ¬ (row < levelEven h l ∧ col < levelEven w l) ∧ transformed w h l row col = false := by
  rw [transformed_eq_false] at ht ⊢
  have hh := levelEven_le_zero h l
  have hw := levelEven_le_zero w l
  omega

theorem dwtForward_copies : CopiesUntransformed (dwtForward N) := by
  intro w h L W row col ht
  induction L with
  | zero => rfl
  | succ l ih =>
    obtain ⟨hregion, ht⟩ := not_transformed_succ ht
    exact (levelForward_outside _ N h w hregion).trans (ih ht)

theorem dwtInverse_copies : CopiesUntransformed (dwtInverse N) := by
  intro w h L W row col ht
  induction L generalizing W with
  | zero => rfl
  | succ l ih =>
    obtain ⟨hregion, ht⟩ := not_transformed_succ ht
    exact (ih _ ht).trans (levelInverse_outside W N h w hregion)

/-! ## The block form is the three-level full-image form (R185) -/

theorem gridOfPlane_dwtForward (g : GridOf S) :
    gridOfPlane (dwtForward N 8 8 3 (planeOfGrid g)) = haar8Forward N g := rfl

theorem gridOfPlane_dwtInverse (g : GridOf S) :
    gridOfPlane (dwtInverse N 8 8 3 (planeOfGrid g)) = haar8Inverse N g := rfl

end

/-- Settles O59: the regions of the three levels of an 8×8 plane are the block form's 8, 4 and 2. -/
theorem haar8IsThreeLevelDwt : Obligations.Haar8IsThreeLevelDwt :=
  fun _ N g => ⟨rfl, gridOfPlane_dwtForward N g, gridOfPlane_dwtInverse N g⟩

/-! ## HAAR8.F and HAAR8.I (R174, R175) -/

/-- What a command from grid to grid does: its one check, and then the transform of the source. -/
theorem gridTransform_raises_or_computes (f : Grid → Grid) {i : Instr} {gd gs : RegNum} {s : State}
    (h : exec i s = gridTransform i gd gs f s) :
    if s.gridValid gs = false then Raises i s .uninit
    else ∃ t, exec i s = .next t ∧ OnlyGrid s t gd
      ∧ (FiniteGrid (s.grid gs) → sameGrid (t.grid gd) (f (s.grid gs))) := by
  refine ite_raises_of_check h (needGrid_fails s gs) fun _ h => ?_
  exact ⟨_, h, onlyGrid_setGrid s gd _, fun hfinite _ _ hi hj =>
    sameSample_setGrid_computed ((allFinite_gridSamples (s.grid gs)).2 hfinite) hi hj⟩

/-- Settles O38: the equations of the line pair, the levels without their tabulations, and the two commands as commands from
grid to grid. -/
theorem haar8TransformsGrid : Obligations.Haar8TransformsGrid := by
  refine ⟨fun S N n k x _ hk => ?_, fun S N g i j hi hj => ?_, fun gd gs s => ?_⟩
  · exact ⟨haarLineForward_average N hk x, haarLineForward_detail N n k x, haarLineInverse_even N n k x,
      haarLineInverse_odd N n k x⟩
  · simp only [haar8Forward, haar8Inverse, gridOfPlane, gridAt_gridOf _ hi hj, List.foldl_cons, List.foldl_nil,
      levelForward_eq, levelInverse_eq]
    exact ⟨rfl, rfl⟩
  · refine ⟨decode_commandWord rfl rfl, decode_commandWord rfl rfl, ?_⟩
    have hforward := gridTransform_raises_or_computes (haar8Forward Binary64.num) (i := .haar8F gd gs) (s := s) rfl
    have hinverse := gridTransform_raises_or_computes (haar8Inverse Binary64.num) (i := .haar8I gd gs) (s := s) rfl
    split_ifs at hforward hinverse ⊢
    · exact ⟨hforward, hinverse⟩
    · exact ⟨hforward, hinverse⟩

/-! ## DWT.LEV (R180) -/

section
variable (fuel : Nat) {w h : Nat}

theorem calcLevelsLoop_halves (hdims : 2 ≤ w ∧ 2 ≤ h) :
    calcLevelsLoop (fuel + 1) w h = calcLevelsLoop fuel (w / 2) (h / 2) + 1 := if_pos hdims

theorem calcLevelsLoop_small (hdims : ¬ (2 ≤ w ∧ 2 ≤ h)) : calcLevelsLoop (fuel + 1) w h = 0 := if_neg hdims

end

theorem calcLevelsLoop_le (fuel w h : Nat) : calcLevelsLoop fuel w h ≤ fuel := by
  induction fuel generalizing w h with
  | zero => exact Nat.le_refl 0
  | succ fuel ih =>
    by_cases hdims : 2 ≤ w ∧ 2 ≤ h
    · exact calcLevelsLoop_halves fuel hdims ▸ Nat.succ_le_succ (ih _ _)
    · exact calcLevelsLoop_small fuel hdims ▸ Nat.zero_le _

/-- Both dimensions are at least 2 before each halving that the loop counts. -/
theorem two_le_of_lt_calcLevelsLoop {fuel w h k : Nat} (hk : k < calcLevelsLoop fuel w h) :
    2 ≤ w / 2 ^ k ∧ 2 ≤ h / 2 ^ k := by
  induction fuel generalizing w h k with
  | zero => exact absurd hk (Nat.not_lt_zero k)
  | succ fuel ih =>
    by_cases hdims : 2 ≤ w ∧ 2 ≤ h
    · rw [calcLevelsLoop_halves fuel hdims] at hk
      cases k with
      | zero => simpa using hdims
      | succ k => simpa only [Nat.pow_succ', Nat.div_div_eq_div_mul] using ih (Nat.lt_of_succ_lt_succ hk)
    · rw [calcLevelsLoop_small fuel hdims] at hk
      exact absurd hk (Nat.not_lt_zero k)

/-- The loop stops out of fuel, or where a dimension is below 2. -/
theorem calcLevelsLoop_stops (fuel w h : Nat) :
    calcLevelsLoop fuel w h = fuel ∨ w / 2 ^ calcLevelsLoop fuel w h < 2 ∨ h / 2 ^ calcLevelsLoop fuel w h < 2 := by
  induction fuel generalizing w h with
  | zero => exact .inl rfl
  | succ fuel ih =>
    by_cases hdims : 2 ≤ w ∧ 2 ≤ h
    · rw [calcLevelsLoop_halves fuel hdims]
      simpa only [Nat.pow_succ', ← Nat.div_div_eq_div_mul, Nat.add_right_cancel_iff] using ih (w / 2) (h / 2)
    · rw [calcLevelsLoop_small fuel hdims, Nat.pow_zero, Nat.div_one, Nat.div_one]
      omega

/-- `LEVELS` has room for every level count. -/
theorem toNat_setLevels_calcLevels (s : State) (w h : Nat) :
    (s.setLevels (calcLevels w h)).complete.levels.toNat = calcLevels w h := by
  have hle : calcLevels w h ≤ 6 := calcLevelsLoop_le 6 w h
  exact Nat.mod_eq_of_lt (by omega)

/-- Settles O39: the loop of R180 with six levels allowed, kept whole in the three bits of `LEVELS`. -/
theorem dwtLevCountsHalvings : Obligations.DwtLevCountsHalvings := by
  intro ds s w h
  refine ⟨decode_commandWord rfl rfl, ?_⟩
  refine ite_raises_of_check rfl (needDesc_fails s ds) fun _ hrun => ?_
  refine ⟨(s.setLevels (calcLevels w h)).complete, hrun, rfl, ?_⟩
  rw [toNat_setLevels_calcLevels]
  exact ⟨calcLevelsLoop_le 6 w h, fun k hk => two_le_of_lt_calcLevelsLoop hk, calcLevelsLoop_stops 6 w h⟩

/-! ## DWT.F and DWT.I (R182, R183) -/

/-- The shape check of the plane commands: two planes of one size (check 3 of R182 and R183). -/
theorem needPlanes_fails (dst src : Desc) :
    (needShape (planesMatch dst src)).1 = true ↔ src.c ≠ 1 ∨ dst.c ≠ 1 ∨ dst.w ≠ src.w ∨ dst.h ≠ src.h := by
  simp only [needShape, planesMatch, Desc.sameSize, Bool.not_eq_true', Bool.and_eq_false_iff, beq_eq_false_iff_ne, or_assoc]

theorem needLevels_fails (s : State) (d : Desc) :
    (needLevels s d).1 = true ↔ calcLevels d.w.toNat d.h.toNat < s.levels.toNat := decide_eq_true_iff

/-- Plane `dst` in t is plane `src` in s taken through `f` with the state's level count, and a copy where `f` transforms
nothing, if the samples of `src` are finite. -/
def TransformsPlane (f : Nat → Nat → Nat → Plane Sample → Plane Sample) (dst src : Desc) (s t : State) : Prop :=
  s.finiteChannel src 0 → ∀ row col, row < src.h.toNat → col < src.w.toNat →
    sameSample (t.memRead (dst.idx row col 0))
      ((f src.w.toNat src.h.toNat s.levels.toNat (s.plane src)).get row col)
    ∧ (s.levels.toNat = 0 ∨ levelEven src.h.toNat 0 ≤ row ∨ levelEven src.w.toNat 0 ≤ col →
      t.memRead (dst.idx row col 0) = s.memRead (src.idx row col 0))

/-- What a full-image wavelet command does: the checks of R182 in order, and then the transform of the plane. -/
theorem dwt_raises_or_transforms {f : Nat → Nat → Nat → Plane Sample → Plane Sample} (hf : CopiesUntransformed f)
    {i : Instr} {dd ds : RegNum} {s : State} (h : exec i s = run i s (dwtChecks s dd ds) (dwtEffects s dd ds f)) :
    if s.descValid dd = false ∨ s.descValid ds = false then Raises i s .uninit
    else if (s.desc ds).c ≠ 1 ∨ (s.desc dd).c ≠ 1 ∨ (s.desc dd).w ≠ (s.desc ds).w ∨ (s.desc dd).h ≠ (s.desc ds).h then
      Raises i s .shape
    else if calcLevels (s.desc ds).w.toNat (s.desc ds).h.toNat < s.levels.toNat then Raises i s .badArg
    else if (s.desc dd).meets (s.desc ds) = true then Raises i s .aliasing
    else (s.desc dd).legal s.memSamples = true → (s.desc ds).legal s.memSamples = true →
      ∃ t, exec i s = .next t ∧ OnlyMemory s t ∧ OutsideUnchanged (s.desc dd) s t
        ∧ TransformsPlane f (s.desc dd) (s.desc ds) s t := by
  refine ite_raises_of_needDescs h fun h => ?_
  refine ite_raises_of_check h (needPlanes_fails _ _) fun hshape h => ?_
  refine ite_raises_of_check h (needLevels_fails s _) fun _ h => ?_
  refine ite_raises_of_check h (needApart_fails _ _) fun _ h hDd hDs => ?_
  obtain ⟨-, -, hch, -⟩ := (Desc.legal_iff _ _).1 hDd
  simp only [not_or, not_not] at hshape
  obtain ⟨-, -, hw, hh⟩ := hshape
  refine ⟨_, exec_of_reaching_pair h hDd hDs, onlyMemory_memWriteAll s _, outsideUnchanged_writeChannel s hch _,
    fun hfinite row col hr hc => ?_⟩
  have hall : allFinite (s.channelSamples (s.desc ds) 0) = true := (allFinite_channelSamples s _ 0).2 hfinite
  rw [memRead_complete, s.memRead_writeChannel _ 0 _ (hh ▸ hr) (hw ▸ hc) hch, tabulate_eq, ← transformed_eq_false]
  split
  case isTrue ht => exact ⟨sameSample_computed_of_finite hall _ _, fun hcopy => by simp [ht] at hcopy⟩
  case isFalse =>
    rw [State.moved_of_finite hall]
    exact ⟨sameSample_refl _, hf _ _ _ (s.plane (s.desc ds)) row col⟩

/-- Settles O40: the levels without their tabulations, and the two commands by `dwt_raises_or_transforms`. -/
theorem dwtTransformsPlane : Obligations.DwtTransformsPlane := by
  refine ⟨fun d l => ⟨rfl, rfl, rfl⟩, fun S N w h l W row col => ?_, fun dd ds s => ?_⟩
  · exact ⟨rfl, rfl, congrArg (fun V : Plane S => V.get row col) (dwtForward_succ N w h l W),
      congrArg (fun V : Plane S => V.get row col) (dwtInverse_succ N w h l W)⟩
  · refine ⟨decode_commandWord rfl rfl, decode_commandWord rfl rfl, ?_⟩
    rintro cmd f (⟨rfl, rfl⟩ | ⟨rfl, rfl⟩)
    · exact dwt_raises_or_transforms (dwtForward_copies Binary64.num) rfl
    · exact dwt_raises_or_transforms (dwtInverse_copies Binary64.num) rfl

end Sys2Proof.Machine
end

section
/-! PROOF. The Haar wavelet over the reals (R176, R184): on a line the inverse undoes the forward transform and the sum of
squares is kept, hence by passes, by levels and by the whole transforms. -/

namespace Sys2Proof.Machine

open Finset

@[simp] theorem realNum_sub (a b : ℝ) : realNum.sub a b = a - b := rfl
@[simp] theorem realNum_div (a b : ℝ) : realNum.div a b = a / b := rfl
@[simp] theorem realNum_sqrt2 : realNum.sqrt2 = √2 := rfl

/-! ## Lines (R170, R171) -/

/-- The butterfly is its own inverse: the sum and the difference of an average and its detail are the two samples. -/
theorem butterfly_add (a b : ℝ) : ((a + b) / √2 + (a - b) / √2) / √2 = a := by
  have h := Real.mul_self_sqrt (zero_le_two (α := ℝ))
  rw [← add_div, div_div, h]
  ring

theorem butterfly_sub (a b : ℝ) : ((a + b) / √2 - (a - b) / √2) / √2 = b := by
  have h := Real.mul_self_sqrt (zero_le_two (α := ℝ))
  rw [← sub_div, div_div, h]
  ring

/-- An average and its detail have the energy of their two samples. -/
theorem butterfly_energy (a b : ℝ) : ((a + b) / √2) ^ 2 + ((a - b) / √2) ^ 2 = a ^ 2 + b ^ 2 := by
  rw [div_pow, div_pow, Real.sq_sqrt (zero_le_two (α := ℝ))]
  ring

/-- A line of even length is undone by its inverse. -/
theorem haarLineInverse_haarLineForward {n k : Nat} (hn : n % 2 = 0) (x : Nat → ℝ) (hk : k < n) :
    haarLineInverse realNum n (haarLineForward realNum n x) k = x k := by
  obtain ⟨j, rfl | rfl⟩ := Nat.even_or_odd' k
  · rw [haarLineInverse_even, haarLineForward_average _ (by omega), haarLineForward_detail]
    simp only [realNum_add, realNum_sub, realNum_div, realNum_sqrt2, butterfly_add]
  · rw [haarLineInverse_odd, haarLineForward_average _ (by omega), haarLineForward_detail]
    simp only [realNum_add, realNum_sub, realNum_div, realNum_sqrt2, butterfly_sub]

/-- A sum over a line of even length, pair by pair. -/
theorem sum_range_pairs (m : Nat) (f : Nat → ℝ) :
    ∑ k ∈ range (2 * m), f k = ∑ k ∈ range m, (f (2 * k) + f (2 * k + 1)) := by
  induction m with
  | zero => rfl
  | succ m ih =>
    rw [Nat.mul_succ, sum_range_succ, sum_range_succ, sum_range_succ, ih, add_assoc]

/-- A line of even length keeps its sum of squares. -/
theorem sum_sq_haarLineForward {n : Nat} (hn : n % 2 = 0) (x : Nat → ℝ) :
    ∑ k ∈ range n, haarLineForward realNum n x k ^ 2 = ∑ k ∈ range n, x k ^ 2 := by
  have hsplit : n = n / 2 + n / 2 := by omega
  have hpairs : n = 2 * (n / 2) := by omega
  calc ∑ k ∈ range n, haarLineForward realNum n x k ^ 2
      = ∑ k ∈ range (n / 2), haarLineForward realNum n x k ^ 2
        + ∑ k ∈ range (n / 2), haarLineForward realNum n x (n / 2 + k) ^ 2 := by
        rw [← sum_range_add, ← hsplit]
    _ = ∑ k ∈ range (n / 2), (x (2 * k) ^ 2 + x (2 * k + 1) ^ 2) := by
        rw [← sum_add_distrib]
        refine sum_congr rfl fun k hk => ?_
        rw [haarLineForward_average _ (mem_range.1 hk), haarLineForward_detail]
        simp only [realNum_add, realNum_sub, realNum_div, realNum_sqrt2, butterfly_energy]
    _ = ∑ k ∈ range n, x k ^ 2 := by
        rw [← sum_range_pairs (n / 2) fun k => x k ^ 2, ← hpairs]

/-- A longer line whose first n samples are transformed, n even, keeps its sum of squares. -/
theorem sum_sq_of_leading {n d : Nat} (hn : n % 2 = 0) (hd : n ≤ d) {x y : Nat → ℝ}
    (hin : ∀ k, k < n → y k = haarLineForward realNum n x k) (hout : ∀ k, ¬ k < n → y k = x k) :
    ∑ k ∈ range d, y k ^ 2 = ∑ k ∈ range d, x k ^ 2 := by
  obtain ⟨e, rfl⟩ := Nat.exists_eq_add_of_le hd
  rw [sum_range_add, sum_range_add, ← sum_sq_haarLineForward hn x]
  congr 1
  · exact sum_congr rfl fun k hk => by rw [hin k (mem_range.1 hk)]
  · exact sum_congr rfl fun k _ => by rw [hout (n + k) (by omega)]

/-! ## Round trips (R176, R184) -/

section
variable {nr nc : Nat} (W : Plane ℝ)

theorem rowPass_inverse_forward (hc : nc % 2 = 0) :
    rowPass (haarLineInverse realNum) nr nc (rowPass (haarLineForward realNum) nr nc W) = W :=
  plane_ext fun r c => by
    by_cases h : r < nr ∧ c < nc
    · rw [rowPass_inside _ h, haarLineInverse_congr realNum (fun k hk => rowPass_inside W ⟨h.1, hk⟩) h.2]
      exact haarLineInverse_haarLineForward hc _ h.2
    · rw [rowPass_outside _ h, rowPass_outside _ h]

theorem colPass_inverse_forward (hr : nr % 2 = 0) :
    colPass (haarLineInverse realNum) nr nc (colPass (haarLineForward realNum) nr nc W) = W :=
  plane_ext fun r c => by
    by_cases h : r < nr ∧ c < nc
    · rw [colPass_inside _ h, haarLineInverse_congr realNum (fun k hk => colPass_inside W ⟨hk, h.2⟩) h.1]
      exact haarLineInverse_haarLineForward hr _ h.1
    · rw [colPass_outside _ h, colPass_outside _ h]

end

/-- The inverse undoes level by level, the last level first. -/
theorem dwtInverse_dwtForward (w h L : Nat) (W : Plane ℝ) :
    dwtInverse realNum w h L (dwtForward realNum w h L W) = W := by
  induction L with
  | zero => rfl
  | succ l ih =>
    rw [dwtInverse_succ, dwtForward_succ, colPass_inverse_forward _ (levelEven_mod_two h l),
      rowPass_inverse_forward _ (levelEven_mod_two w l), ih]

/-- Settles O58: the regions have even sides, so every level is undone, on the whole plane. -/
theorem realDwtRoundTrip : Obligations.RealDwtRoundTrip :=
  fun w h L W _ _ _ _ => by rw [dwtInverse_dwtForward]

/-! ## The inverse reads an h×w plane only (R183) -/

/-- Two planes with the same samples in the top-left h×w. -/
def Plane.AgreeOn {S : Type} (h w : Nat) (V W : Plane S) : Prop := ∀ r c, r < h → c < w → V.get r c = W.get r c

section
variable {S : Type} (N : Num S) {h w nr nc : Nat} {V W : Plane S}

theorem Plane.AgreeOn.rowPass (hVW : V.AgreeOn h w W) (hc : nc ≤ w) :
    (rowPass (haarLineInverse N) nr nc V).AgreeOn h w (rowPass (haarLineInverse N) nr nc W) := by
  intro r c hr hcw
  by_cases hin : r < nr ∧ c < nc
  · rw [rowPass_inside _ hin, rowPass_inside _ hin]
    exact haarLineInverse_congr N (fun k hk => hVW r k hr (hk.trans_le hc)) hin.2
  · rw [rowPass_outside _ hin, rowPass_outside _ hin, hVW r c hr hcw]

theorem Plane.AgreeOn.colPass (hVW : V.AgreeOn h w W) (hr : nr ≤ h) :
    (colPass (haarLineInverse N) nr nc V).AgreeOn h w (colPass (haarLineInverse N) nr nc W) := by
  intro r c hrh hc
  by_cases hin : r < nr ∧ c < nc
  · rw [colPass_inside _ hin, colPass_inside _ hin]
    exact haarLineInverse_congr N (fun k hk => hVW k c (hk.trans_le hr) hc) hin.1
  · rw [colPass_outside _ hin, colPass_outside _ hin, hVW r c hrh hc]

theorem Plane.AgreeOn.dwtInverse (hVW : V.AgreeOn h w W) (L : Nat) :
    (dwtInverse N w h L V).AgreeOn h w (dwtInverse N w h L W) := by
  induction L generalizing V W with
  | zero => exact hVW
  | succ l ih =>
    rw [dwtInverse_succ, dwtInverse_succ]
    exact ih ((hVW.colPass N (levelEven_le h l)).rowPass N (levelEven_le w l))

theorem planeOfGrid_gridOfPlane (W : Plane S) : (planeOfGrid (gridOfPlane W)).AgreeOn 8 8 W :=
  fun _ _ hr hc => gridAt_gridOf _ hr hc

end

/-- The block form's round trip is the full-image form's on an 8×8 plane (R185). -/
theorem haar8Inverse_haar8Forward (g : GridOf ℝ) : haar8Inverse realNum (haar8Forward realNum g) = g := by
  rw [← gridOfPlane_dwtInverse, ← gridOfPlane_dwtForward]
  refine grid_ext fun i j hi hj => ?_
  rw [gridOfPlane, gridAt_gridOf _ hi hj, (planeOfGrid_gridOfPlane _).dwtInverse realNum 3 i j hi hj,
    dwtInverse_dwtForward]
  rfl

/-! ## Energy (R176) -/

/-- The sum of squares of the top-left h×w of a plane. -/
noncomputable def planeEnergy (h w : Nat) (W : Plane ℝ) : ℝ := ∑ r ∈ range h, ∑ c ∈ range w, W.get r c ^ 2

section
variable {h w nr nc : Nat} (W : Plane ℝ)

/-- A row pass keeps the energy of every row. -/
theorem planeEnergy_rowPass (hc : nc % 2 = 0) (hcw : nc ≤ w) :
    planeEnergy h w (rowPass (haarLineForward realNum) nr nc W) = planeEnergy h w W := by
  refine sum_congr rfl fun r _ => ?_
  by_cases hr : r < nr
  · exact sum_sq_of_leading hc hcw (fun c hc => rowPass_inside W ⟨hr, hc⟩)
      fun c hc => rowPass_outside W fun hin => hc hin.2
  · exact sum_congr rfl fun c _ => by rw [rowPass_outside W fun hin => hr hin.1]

/-- A column pass keeps the energy of every column. -/
theorem planeEnergy_colPass (hr : nr % 2 = 0) (hrh : nr ≤ h) :
    planeEnergy h w (colPass (haarLineForward realNum) nr nc W) = planeEnergy h w W := by
  simp only [planeEnergy]
  rw [sum_comm, sum_comm (s := range h)]
  refine sum_congr rfl fun c _ => ?_
  by_cases hc : c < nc
  · exact sum_sq_of_leading hr hrh (fun r hr => colPass_inside W ⟨hr, hc⟩)
      fun r hr => colPass_outside W fun hin => hr hin.1
  · exact sum_congr rfl fun r _ => by rw [colPass_outside W fun hin => hc hin.2]

/-- The full-image form keeps the energy of its plane, whatever the sizes and the level count are. -/
theorem planeEnergy_dwtForward (L : Nat) : planeEnergy h w (dwtForward realNum w h L W) = planeEnergy h w W := by
  induction L with
  | zero => rfl
  | succ l ih =>
    rw [dwtForward_succ, planeEnergy_colPass _ (levelEven_mod_two h l) (levelEven_le h l),
      planeEnergy_rowPass _ (levelEven_mod_two w l) (levelEven_le w l), ih]

/-- The samples of a grid made of a plane have the plane's energy. -/
theorem gridEnergy_gridOfPlane : ((gridSamples (gridOfPlane W)).map fun v => v ^ 2).sum = planeEnergy 8 8 W := by
  rw [gridEnergy_eq_trace, planeEnergy, Finset.sum_range]
  refine sum_congr rfl fun i _ => ?_
  rw [Finset.sum_range, Matrix.diag_apply, Matrix.mul_apply]
  exact sum_congr rfl fun j _ => by
    rw [Matrix.transpose_apply, ← sq, gridMatrix, Matrix.of_apply, gridOfPlane, gridAt_gridOf _ i.2 j.2]

end

/-- Settles O57: the block form is the full-image form of an 8×8 plane, which is undone and keeps the energy. -/
theorem realHaar8RoundTripAndEnergy : Obligations.RealHaar8RoundTripAndEnergy := by
  refine fun g => ⟨haar8Inverse_haar8Forward g, ?_⟩
  calc ((gridSamples (haar8Forward realNum g)).map fun v => v ^ 2).sum
      = planeEnergy 8 8 (dwtForward realNum 8 8 3 (planeOfGrid g)) := by
        rw [← gridOfPlane_dwtForward, gridEnergy_gridOfPlane]
    _ = planeEnergy 8 8 (planeOfGrid g) := planeEnergy_dwtForward _ 3
    _ = ((gridSamples g).map fun v => v ^ 2).sum := by
        rw [← gridEnergy_gridOfPlane, gridOfPlane, planeOfGrid, gridOf_gridAt]

end Sys2Proof.Machine
end

section
/-! PROOF. The words that the spec prints beside its examples (R100, 95_test_vectors.md P6). -/

namespace Sys2Proof

/-- A printed word that is the encoding of a well-formed command decodes to that command (R92). -/
theorem decode_of_encode_eq {i : Instr} {w : Word} (hword : encode i = w) (hwf : i.wellFormed = true) :
    decode w = .ok i := by
  rw [← hword, decode_encode, if_pos hwf]

/-- Settles O4: each word is the encoding of the command that is printed beside it. -/
theorem specExampleWordsDecode : Obligations.SpecExampleWordsDecode := by
  unfold Obligations.SpecExampleWordsDecode
  and_intros
  all_goals exact decode_of_encode_eq rfl rfl

end Sys2Proof
end

section
/-! PROOF. The statements of the quantiser: CONFIG (R203), the quantisers of grids and planes (R204 to R206, R212 to R215),
the subband steps (R211) and the bit estimators (R216 to R218). -/

namespace Sys2Proof.Machine

/-! ## CONFIG (R203) -/

/-- Check 1 of R203 as a condition on `QUALITY`. -/
theorem State.badQuality_iff (s : State) :
    s.badQuality = true ↔ Binary64.isFinite s.quality = false ∨ Binary64.le s.quality 0#64 = true := by
  rw [State.badQuality, Bool.or_eq_true, Bool.not_eq_true']
  rfl

/-- An entry of a derived table is R202's formula. -/
theorem gridAt_deriveTable {S : Type} (N : Num S) (t : TableSel) (x : S) {i j : Nat} (hi : i < 8) (hj : j < 8) :
    gridAt (deriveTable N t x) i j = N.max (N.ofInt 1) (N.rnd (N.mul (N.ofInt (baseEntry t i j)) x)) :=
  gridAt_gridOf _ hi hj

/-- Both tables of a configured block are derived from the scale of the staged quality. -/
theorem State.table_configured (s : State) (t : TableSel) :
    s.configured.complete.table t = deriveTable Binary64.num t (scaleOf Binary64.num s.quality) := by
  cases t <;> rfl

/-- What `CONFIG` writes: the active configuration, its scale and base step, the tables and CFGV, and nothing else. -/
theorem State.complete_configured (s : State) : s.configured.complete =
    { s.complete with
      cfg := s.cfgstage
      qactive := s.quality
      scale := s.configured.complete.scale
      basestep := s.configured.complete.basestep
      qtLuma := s.configured.complete.qtLuma
      qtChroma := s.configured.complete.qtChroma
      status := { s.complete.status with cfgv := true } } := by
  unfold State.configured State.complete
  dsimp only

/-- Settles O26: the two checks of R203, and then `State.configured`, whose base step and tables come from the scale before
the sign of its zero is opened. -/
theorem configDerivesTables : Obligations.ConfigDerivesTables := by
  intro s
  refine ⟨decode_of_encode_eq rfl rfl, ?_⟩
  refine ite_raises_of_check (check := (s.badQuality, .badConfig)) rfl s.badQuality_iff fun _ h => ?_
  refine ite_raises_of_check (check := (cfgChroma s.cfgstage == 3, .badConfig)) h beq_iff_eq fun _ h => ?_
  refine ⟨s.configured.complete, h, s.complete_configured, sameSample_freeZero s 0 _, sameSample_freeZero s 1 _,
    fun t i j hi hj => ?_⟩
  rw [State.table_configured]
  exact gridAt_deriveTable Binary64.num t _ hi hj

/-! ## Commands that compute a grid under the active configuration -/

/-- The statements of two commands with the same checks, joined under their one condition. -/
theorem ite_and_ite {c p q p' q' : Prop} [Decidable c] (hp : if c then p else p') (hq : if c then q else q') :
    if c then p ∧ q else p' ∧ q' := by
  split_ifs at hp hq ⊢
  · exact ⟨hp, hq⟩
  · exact ⟨hp, hq⟩

/-- The two checks of a grid quantiser in order, and then the grid that it computes from finite samples. -/
theorem raises_or_computesGrid {i : Instr} {gd gs : RegNum} {s : State} {finite : Bool} {g : Grid}
    (h : exec i s = run i s [needGrid s gs, needConfig s] (completes (s.setGrid gd (s.computedGrid finite 0 g)))) :
    if s.gridValid gs = false ∨ s.status.cfgv = false then Raises i s .uninit
    else ∃ t, exec i s = .next t ∧ OnlyGrid s t gd ∧ (finite = true → sameGrid (t.grid gd) g) :=
  ite_raises_of_check (h.trans (run_checks_or _ _ _)) (by simp) fun _ h =>
    ⟨_, h, onlyGrid_setGrid s gd _, fun hfinite _ _ hi hj => sameSample_setGrid_computed hfinite hi hj⟩

/-! ## Q.BLK and DQ.BLK (R205, R206) -/

theorem gridAt_gridZip {S : Type} (f : S → S → S) (a b : GridOf S) {i j : Nat} (hi : i < 8) (hj : j < 8) :
    gridAt (gridZip f a b) i j = f (gridAt a i j) (gridAt b i j) := gridAt_gridOf _ hi hj

/-- What a command from grid and table to grid does: its checks, and then `f` of each element and its table entry. -/
theorem tableCommand_raises_or_fills (f : Sample → Sample → Sample) {i : Instr} {gd gs : RegNum} {sel : TableSel}
    {s : State} (h : exec i s = tableCommand i gd gs sel f s) :
    if s.gridValid gs = false ∨ s.status.cfgv = false then Raises i s .uninit
    else ∃ t, exec i s = .next t ∧ OnlyGrid s t gd
      ∧ (FiniteGrid (s.grid gs) → FiniteGrid (s.table sel) → ∀ i j, i < 8 → j < 8 →
          sameSample (gridAt (t.grid gd) i j) (f (gridAt (s.grid gs) i j) (gridAt (s.table sel) i j))) := by
  have hgrid := raises_or_computesGrid h
  split_ifs at hgrid ⊢
  · exact hgrid
  · obtain ⟨t, ht, honly, hsame⟩ := hgrid
    refine ⟨t, ht, honly, fun hsource htable i j hi hj => ?_⟩
    rw [← gridAt_gridZip f _ _ hi hj]
    refine hsame ?_ i j hi hj
    rw [allFinite_append, (allFinite_gridSamples _).2 hsource, (allFinite_gridSamples _).2 htable, Bool.and_self]

/-- Settles O41. -/
theorem tableQuantisersFillGrid : Obligations.TableQuantisersFillGrid := by
  intro gd gs sel s N
  have hq : encode (.qBlk gd gs sel) = assemble 0x50#8 gd gs 0 (selectorField sel) := by
    rw [selectorField_eq]
    rfl
  have hdq : encode (.dqBlk gd gs sel) = assemble 0x51#8 gd gs 0 (selectorField sel) := by
    rw [selectorField_eq]
    rfl
  exact ⟨decode_commandWord hq rfl, decode_commandWord hdq rfl,
    ite_and_ite (tableCommand_raises_or_fills (quant N) rfl) (tableCommand_raises_or_fills (dequant N) rfl)⟩

/-! ## Subband steps (R211) -/

section
variable {S : Type} (N : Num S) {x y w h : Nat} (base : S)

theorem dwtStep_finalLL {L : Nat} (hin : 1 ≤ L ∧ x < levelDim w L ∧ y < levelDim h L) :
    dwtStep N x y w h L base = bandStep N base L := if_pos hin

theorem dwtStep_detail {L : Nat} (hout : ¬ (1 ≤ L ∧ x < levelDim w L ∧ y < levelDim h L)) :
    dwtStep N x y w h L base = stepWalk N x y w h base L := if_neg hout

theorem stepWalk_inside {l : Nat} (hin : x < levelEven w l ∧ y < levelEven h l) :
    stepWalk N x y w h base (l + 1) = bandStep N base l := if_pos hin

theorem stepWalk_outside {l : Nat} (hout : ¬ (x < levelEven w l ∧ y < levelEven h l)) :
    stepWalk N x y w h base (l + 1) = stepWalk N x y w h base l := if_neg hout

/-- The walk passes the levels whose region does not contain the position. -/
theorem stepWalk_skip {m L : Nat} (hm : m ≤ L)
    (hout : ∀ k, m ≤ k → k < L → ¬ (x < levelEven w k ∧ y < levelEven h k)) :
    stepWalk N x y w h base L = stepWalk N x y w h base m := by
  induction L, hm using Nat.le_induction with
  | base => rfl
  | succ L hm ih =>
    rw [stepWalk_outside N base (hout L hm L.lt_succ_self)]
    exact ih fun k hk hkL => hout k hk (Nat.lt_succ_of_lt hkL)

end

/-- R(0) contains every other region. -/
theorem inside_levelEven_zero {x y w h l : Nat} (hin : x < levelEven w l ∧ y < levelEven h l) :
    x < levelEven w 0 ∧ y < levelEven h 0 :=
  ⟨hin.1.trans_le (levelEven_le_zero w l), hin.2.trans_le (levelEven_le_zero h l)⟩

/-- The final LL lies in the region of the level before it. -/
theorem levelDim_succ_le (d l : Nat) : levelDim d (l + 1) ≤ levelEven d l := Nat.div_le_self _ 2

/-- Outside R(0), and with no levels, the step is the edge step. -/
theorem dwtStep_edge {S : Type} (N : Num S) {x y w h L : Nat} (base : S)
    (hout : L = 0 ∨ ¬ (x < levelEven w 0 ∧ y < levelEven h 0)) :
    dwtStep N x y w h L base = N.max (N.ofInt 1) base := by
  cases L with
  | zero => rw [dwtStep_detail N base (by omega), stepWalk]
  | succ L =>
    have hzero : ¬ (x < levelEven w 0 ∧ y < levelEven h 0) := hout.resolve_left L.succ_ne_zero
    have hLL : ¬ (1 ≤ L + 1 ∧ x < levelDim w (L + 1) ∧ y < levelDim h (L + 1)) := fun ⟨_, hx, hy⟩ =>
      hzero (inside_levelEven_zero ⟨hx.trans_le (levelDim_succ_le w L), hy.trans_le (levelDim_succ_le h L)⟩)
    rw [dwtStep_detail N base hLL,
      stepWalk_skip N base (Nat.zero_le _) fun _ _ _ hin => hzero (inside_levelEven_zero hin), stepWalk]

/-- Settles O42: the geometry is `levelDim` and `levelEven`, and the walk from the coarsest level stops at the first region
that contains the position. -/
theorem dwtStepFollowsRegions : Obligations.DwtStepFollowsRegions := by
  intro S N x y w h L base
  refine ⟨fun _ _ => ⟨rfl, rfl, rfl⟩, fun hL hx hy => dwtStep_finalLL N base ⟨hL, hx, hy⟩,
    fun hLL l hl hx hy hcoarser => ?_, dwtStep_edge N base⟩
  rw [dwtStep_detail N base fun hin => hLL hin.2, stepWalk_skip N base hl hcoarser, stepWalk_inside N base ⟨hx, hy⟩]
  rfl

/-! ## QW.BLK and DQW.BLK (R212, R213) -/

/-- The step map of the block form has the column as x and the row as y. -/
theorem gridAt_blockSteps {S : Type} (N : Num S) (base : S) {i j : Nat} (hi : i < 8) (hj : j < 8) :
    gridAt (blockSteps N base) i j = dwtStep N j i 8 8 3 base := gridAt_gridOf _ hi hj

/-- What a command from grid to grid by the block step map does: its checks, and then `f` of each element and its step. -/
theorem waveletCommand_raises_or_fills (f : Sample → Sample → Sample) {i : Instr} {gd gs : RegNum} {s : State}
    (h : exec i s = waveletCommand i gd gs f s) :
    if s.gridValid gs = false ∨ s.status.cfgv = false then Raises i s .uninit
    else ∃ t, exec i s = .next t ∧ OnlyGrid s t gd
      ∧ (FiniteGrid (s.grid gs) → Binary64.isFinite s.basestep = true → ∀ i j, i < 8 → j < 8 →
          sameSample (gridAt (t.grid gd) i j)
            (f (gridAt (s.grid gs) i j) (dwtStep Binary64.num j i 8 8 3 s.basestep))) := by
  have hgrid := raises_or_computesGrid h
  split_ifs at hgrid ⊢
  · exact hgrid
  · obtain ⟨t, ht, honly, hsame⟩ := hgrid
    refine ⟨t, ht, honly, fun hsource hbase i j hi hj => ?_⟩
    rw [← gridAt_blockSteps Binary64.num s.basestep hi hj, ← gridAt_gridZip f _ _ hi hj]
    refine hsame ?_ i j hi hj
    rw [allFinite_cons, hbase, (allFinite_gridSamples _).2 hsource, Bool.and_self]

/-- Settles O43. -/
theorem waveletBlockQuantisersFillGrid : Obligations.WaveletBlockQuantisersFillGrid :=
  fun _ _ _ => ⟨decode_commandWord rfl rfl, decode_commandWord rfl rfl,
    ite_and_ite (waveletCommand_raises_or_fills (quant Binary64.num) rfl)
      (waveletCommand_raises_or_fills (dequant Binary64.num) rfl)⟩

/-! ## QW.PLN and DQW.PLN (R214, R215) -/

/-- Plane `dst` in t holds `f` of each sample of plane `src` in s and the sample's subband step, if these are finite. -/
def StepsPlane (f : Sample → Sample → Sample) (dst src : Desc) (s t : State) : Prop :=
  s.finiteChannel src 0 → Binary64.isFinite s.basestep = true → ∀ row col, row < src.h.toNat → col < src.w.toNat →
    sameSample (t.memRead (dst.idx row col 0))
      (f (s.memRead (src.idx row col 0))
        (dwtStep Binary64.num col row src.w.toNat src.h.toNat s.levels.toNat s.basestep))

/-- What a plane quantiser does: the six checks of R214 in order, and then `f` of each sample and its step. -/
theorem waveletPlane_raises_or_fills (f : Sample → Sample → Sample) {i : Instr} {dd ds : RegNum} {s : State}
    (h : exec i s = run i s (waveletPlaneChecks s dd ds) (waveletPlaneEffects s dd ds f)) :
    if s.descValid dd = false ∨ s.descValid ds = false then Raises i s .uninit
    else if s.status.cfgv = false then Raises i s .uninit
    else if (s.desc ds).c ≠ 1 ∨ (s.desc dd).c ≠ 1 ∨ (s.desc dd).w ≠ (s.desc ds).w ∨ (s.desc dd).h ≠ (s.desc ds).h then
      Raises i s .shape
    else if calcLevels (s.desc ds).w.toNat (s.desc ds).h.toNat < s.levels.toNat then Raises i s .badArg
    else if (s.desc dd).meets (s.desc ds) = true then Raises i s .aliasing
    else (s.desc dd).legal s.memSamples = true → (s.desc ds).legal s.memSamples = true →
      ∃ t, exec i s = .next t ∧ OnlyMemory s t ∧ OutsideUnchanged (s.desc dd) s t
        ∧ StepsPlane f (s.desc dd) (s.desc ds) s t := by
  refine ite_raises_of_needDescs h fun h => ?_
  refine ite_raises_of_check h (needConfig_fails s) fun _ h => ?_
  refine ite_raises_of_check h (needPlanes_fails _ _) fun hshape h => ?_
  refine ite_raises_of_check h (needLevels_fails s _) fun _ h => ?_
  refine ite_raises_of_check h (needApart_fails _ _) fun _ h hDd hDs => ?_
  obtain ⟨-, -, hch, -⟩ := (Desc.legal_iff _ _).1 hDd
  simp only [not_or, not_not] at hshape
  obtain ⟨-, -, hw, hh⟩ := hshape
  refine ⟨_, exec_of_reaching_pair h hDd hDs, onlyMemory_memWriteAll s _, outsideUnchanged_writeChannel s hch _,
    fun hfinite hbase row col hr hc => ?_⟩
  rw [memRead_complete, s.memRead_writeChannel _ 0 _ (hh ▸ hr) (hw ▸ hc) hch]
  refine sameSample_computed_of_finite ?_ _ _
  rw [allFinite_cons, hbase, (allFinite_channelSamples s _ 0).2 hfinite, Bool.and_self]

/-- Settles O44. -/
theorem waveletPlaneQuantisersFillPlane : Obligations.WaveletPlaneQuantisersFillPlane := by
  refine fun dd ds s => ⟨decode_commandWord rfl rfl, decode_commandWord rfl rfl, ?_⟩
  rintro cmd f (⟨rfl, rfl⟩ | ⟨rfl, rfl⟩)
  · exact waveletPlane_raises_or_fills (quant Binary64.num) rfl
  · exact waveletPlane_raises_or_fills (dequant Binary64.num) rfl

/-! ## BITS.BLK and BITS.PLN (R217, R218) -/

theorem onlyRes0_setRes0 (s : State) (x : Sample) : OnlyRes0 s (s.setRes0 x).complete := rfl

/-- The estimate of samples read place by place is the loop of R217. -/
theorem bitEstimate_range {S : Type} (N : Num S) (header : S) (n : Nat) (v : Nat → S) :
    bitEstimate N header ((List.range n).map v) =
      N.add ((List.range n).foldl (fun acc k => N.add acc (bitCost N (v k))) (N.ofInt 0)) header := by
  rw [bitEstimate, Num.sum, List.foldl_map, List.foldl_map]

/-- RES0 after an estimate of finite samples. -/
theorem sameSample_withEstimate {s : State} {vs : List Sample} (h : allFinite vs = true) :
    sameSample (s.withEstimate vs).complete.res0 (bitEstimate Binary64.num Config.hdrBits vs) :=
  sameSample_computed_of_finite h 0 _

/-- Settles O45: the one check of each estimator, and the estimate of the operand's samples in order. -/
theorem bitEstimatorsWriteRes0 : Obligations.BitEstimatorsWriteRes0 := by
  intro n s N bits D
  refine ⟨decode_commandWord rfl rfl, decode_commandWord rfl rfl, ?_, ?_⟩
  · refine ite_raises_of_check rfl (needGrid_fails s n) fun _ h => ?_
    refine ⟨_, h, onlyRes0_setRes0 s _, fun hfinite => ?_⟩
    have hres0 := sameSample_withEstimate (s := s) ((allFinite_gridSamples (s.grid n)).2 hfinite)
    rwa [gridSamples_eq, bitEstimate_range, ← gridSamples_eq] at hres0
  · refine ite_raises_of_check rfl (needDesc_fails s n) fun _ h hlegal => ?_
    refine ⟨_, exec_of_reaching h (List.forall_mem_singleton.2 hlegal), onlyRes0_setRes0 s _, fun hfinite => ?_⟩
    have hres0 := sameSample_withEstimate (s := s) ((allFinite_imageSamples s D).2 hfinite)
    rwa [State.imageSamples, bitEstimate_range] at hres0

end Sys2Proof.Machine
end

section
/-! PROOF. Quantisation over the reals (R204 with R9): `rnd` rounds the magnitude to the nearest integer and keeps the sign,
so it moves a value by at most a half and keeps integers. -/

namespace Sys2Proof.Machine

theorem realRnd_eq_sign_mul_round (x : ℝ) : realRnd x = SignType.sign x * (round |x| : ℝ) := by
  rw [realRnd, round_eq]

theorem abs_realRnd_sub (x : ℝ) : |realRnd x - x| ≤ 1 / 2 := by
  have hsign : |(SignType.sign x : ℝ)| ≤ 1 := by
    cases SignType.sign x <;> simp
  calc |realRnd x - x| = |SignType.sign x * ((round |x| : ℝ) - |x|)| := by
        rw [mul_sub, sign_mul_abs, realRnd_eq_sign_mul_round]
    _ ≤ |((round |x| : ℝ) - |x|)| := by
        rw [abs_mul]
        exact mul_le_of_le_one_left (abs_nonneg _) hsign
    _ ≤ 1 / 2 := by
        rw [abs_sub_comm]
        exact abs_sub_round |x|

theorem realRnd_intCast (k : ℤ) : realRnd k = k := by
  rw [realRnd_eq_sign_mul_round, ← Int.cast_abs, round_intCast, Int.cast_abs, sign_mul_abs]

/-- The error of a dequantised index is the error of `rnd` on the quotient, times the step. -/
theorem dequant_quant_sub {q : ℝ} (hq : q ≠ 0) (v : ℝ) :
    dequant realNum (quant realNum v q) q - v = (realRnd (v / q) - v / q) * q := by
  rw [sub_mul, div_mul_cancel₀ v hq]
  rfl

/-- Settles O60. -/
theorem realQuantisationError : Obligations.RealQuantisationError := by
  intro v q h1
  have hq : 0 < q := zero_lt_one.trans_le h1
  refine ⟨rfl, fun k => rfl, ?_, fun k => ?_⟩
  · calc |dequant realNum (quant realNum v q) q - v| = |realRnd (v / q) - v / q| * q := by
          rw [dequant_quant_sub hq.ne', abs_mul, abs_of_pos hq]
      _ ≤ 1 / 2 * q := mul_le_mul_of_nonneg_right (abs_realRnd_sub _) hq.le
      _ = q / 2 := by ring
  · change realRnd ((k : ℝ) * q / q) = k
    rw [mul_div_cancel_right₀ _ hq.ne', realRnd_intCast]

end Sys2Proof.Machine
end

section
/-! PROOF. The statements of the chroma commands CDOWN and CUP (R230 to R233): both write one sample for each position of
the destination plane, the average of a neighbourhood of the source or the source sample at the divided coordinates. -/

namespace Sys2Proof.Machine

/-! ## What the two commands share (R230, R231) -/

theorem modeLegal_of_ne {m : BitVec 2} (hm : m ≠ 3#2) : modeLegal m = true := bne_iff_ne.2 hm

/-- In a legal mode a chroma command is its own checks and effects. -/
theorem chromaRun_of_modeLegal {m : BitVec 2} (hm : modeLegal m = true) (i : Instr) (s : State) (checks : Checks)
    (effects : Result) : chromaRun i m s checks effects = run i s checks effects := by
  rw [chromaRun, hm]
  rfl

/-- The shape check of the chroma commands: two planes, the small one of the downsampled shape of the large one (R231). -/
theorem needChromaShapes_fails (large small : Desc) (m : BitVec 2) :
    (needShape (chromaShapes large small m)).1 = true ↔
      large.c ≠ 1 ∨ small.c ≠ 1 ∨ small.w.toNat ≠ cdiv large.w.toNat (modeSx m)
        ∨ small.h.toNat ≠ cdiv large.h.toNat (modeSy m) := by
  simp only [needShape, chromaShapes, Bool.not_eq_true', Bool.and_eq_false_iff, beq_eq_false_iff_ne, or_assoc]

/-- Plane d holds `v row col` at every position. -/
def State.holdsPlane (t : State) (d : Desc) (v : Nat → Nat → Sample) : Prop :=
  ∀ row col, row < d.h.toNat → col < d.w.toNat → t.memRead (d.idx row col 0) = v row col

theorem holdsPlane_writeChannel (s : State) {d : Desc} (hch : 0 < d.c.toNat) (v : Nat → Nat → Sample) :
    (s.writeChannel d 0 v).complete.holdsPlane d v :=
  fun _ _ hr hc => s.memRead_writeChannel d 0 v hr hc hch

/-- What a chroma command in a legal mode does: its checks in the rule's order, and then the samples `v` into plane dd. -/
theorem chroma_raises_or_writes {i : Instr} {m : BitVec 2} {dd ds : RegNum} {s : State} {large small : Desc}
    {v : Nat → Nat → Sample} {mismatch : Prop} [Decidable mismatch] {result : State → Prop} (hm : modeLegal m = true)
    (hexec : exec i s = chromaRun i m s
      [needDesc s dd, needDesc s ds, needShape (chromaShapes large small m), needApart (s.desc dd) (s.desc ds)]
      (reaching s [s.desc dd, s.desc ds] (completes (s.writeChannel (s.desc dd) 0 v))))
    (hfails : (needShape (chromaShapes large small m)).1 = true ↔ mismatch)
    (hresult : ¬ mismatch → ∀ t : State, t.holdsPlane (s.desc dd) v → result t) :
    if s.descValid dd = false ∨ s.descValid ds = false then Raises i s .uninit
    else if mismatch then Raises i s .shape
    else if (s.desc dd).meets (s.desc ds) = true then Raises i s .aliasing
    else (s.desc dd).legal s.memSamples = true → (s.desc ds).legal s.memSamples = true →
      ∃ t, exec i s = .next t ∧ OnlyMemory s t ∧ OutsideUnchanged (s.desc dd) s t ∧ result t := by
  refine ite_raises_of_needDescs (hexec.trans (chromaRun_of_modeLegal hm ..)) fun h => ?_
  refine ite_raises_of_check h hfails fun hshape h => ?_
  refine ite_raises_of_check h (needApart_fails _ _) fun _ h hDd hDs => ?_
  obtain ⟨-, -, hch, -⟩ := (Desc.legal_iff _ _).1 hDd
  exact ⟨_, exec_of_reaching_pair h hDd hDs, onlyMemory_memWriteAll s _, outsideUnchanged_writeChannel s hch v,
    hresult hshape _ (holdsPlane_writeChannel s hch v)⟩

/-! ## CDOWN (R232) -/

/-- Folding along the positions of an array is the two nested loops, rows outside (R232). -/
theorem foldl_rowMajor {β : Type} (h w : Nat) (f : β → Nat × Nat → β) (acc : β) :
    (rowMajor h w).foldl f acc =
      (List.range h).foldl (fun acc r => (List.range w).foldl (fun acc c => f acc (r, c)) acc) acc := by
  simp only [rowMajor, List.foldl_flatMap, List.foldl_map]

section
variable {S : Type} (N : Num S)

/-- Adding the samples that exist and counting them along a list is summing and counting the filtered list. -/
theorem foldl_add_and_count {α : Type} (l : List α) (inside : α → Bool) (f : α → S) (acc : S × Nat) :
    l.foldl (fun acc a => if inside a = true then (N.add acc.1 (f a), acc.2 + 1) else acc) acc =
      (((l.filter inside).map f).foldl N.add acc.1, acc.2 + (l.filter inside).length) := by
  induction l generalizing acc with
  | nil => rfl
  | cons a l ih =>
    rw [List.foldl_cons, ih]
    cases hin : inside a with
    | true => simp [hin, Nat.add_assoc, Nat.add_comm 1]
    | false => simp [hin]

/-- The sum and the number of the samples of a neighbourhood that exist, by the nested loops of R232. -/
def neighbourhoodLoops (W : Plane S) (w h : Nat) (m : BitVec 2) (y x : Nat) : S × Nat :=
  (List.range (modeSy m)).foldl (fun acc dy => (List.range (modeSx m)).foldl (fun acc dx =>
    if y * modeSy m + dy < h ∧ x * modeSx m + dx < w then
      (N.add acc.1 (W.get (y * modeSy m + dy) (x * modeSx m + dx)), acc.2 + 1)
    else acc) acc) (N.ofInt 0, 0)

theorem neighbourhoodLoops_eq (W : Plane S) (w h : Nat) (m : BitVec 2) (y x : Nat) :
    neighbourhoodLoops N W w h m y x =
      (N.sum (neighbourhood W w h m y x), (neighbourhood W w h m y x).length) := by
  have hfold := foldl_add_and_count N (rowMajor (modeSy m) (modeSx m))
    (fun p => decide (y * modeSy m + p.1 < h) && decide (x * modeSx m + p.2 < w))
    (fun p => W.get (y * modeSy m + p.1) (x * modeSx m + p.2)) (N.ofInt 0, 0)
  rw [foldl_rowMajor, Nat.zero_add] at hfold
  rw [neighbourhood, Num.sum, List.length_map, ← hfold]
  simp only [neighbourhoodLoops, Bool.and_eq_true, decide_eq_true_eq]

/-- The average of a neighbourhood is the quotient of what R232's loops leave. -/
theorem average_neighbourhood (W : Plane S) (w h : Nat) (m : BitVec 2) (y x : Nat) :
    average N (neighbourhood W w h m y x) =
      N.div (neighbourhoodLoops N W w h m y x).1 (N.ofInt (neighbourhoodLoops N W w h m y x).2) := by
  rw [neighbourhoodLoops_eq, average]

end

/-- Settles O46: the command by `chroma_raises_or_writes`, and each average by R232's loops. -/
theorem cdownAveragesNeighbourhoods : Obligations.CdownAveragesNeighbourhoods := by
  intro dd ds m s hm Dd Ds N sx sy
  have hlegal := modeLegal_of_ne hm
  refine ⟨decode_commandWord (i := .cdown dd ds m) rfl hlegal, ?_⟩
  refine chroma_raises_or_writes hlegal rfl (needChromaShapes_fails Ds Dd m) fun _ t hholds hfinite y x hy hx => ?_
  rw [hholds y x hy hx]
  beta_reduce
  rw [average_neighbourhood]
  exact sameSample_computed_of_finite ((allFinite_channelSamples s Ds 0).2 hfinite) _ _

/-! ## CUP (R233) -/

theorem modeSx_pos (m : BitVec 2) : 0 < modeSx m := by
  rw [modeSx]
  split <;> decide

theorem modeSy_pos (m : BitVec 2) : 0 < modeSy m := by
  rw [modeSy]
  split <;> decide

/-- A coordinate of the large plane, divided, lies inside the small plane (R231, R233). -/
theorem div_lt_cdiv {a n k : Nat} (hk : 0 < k) (ha : a < n) : a / k < cdiv n k :=
  calc a / k < a / k + 1 := Nat.lt_succ_self _
    _ = (a + k) / k := (Nat.add_div_right a hk).symm
    _ ≤ (n + k - 1) / k := Nat.div_le_div_right (by omega)

/-- Settles O47: the command by `chroma_raises_or_writes`; the shape check puts the divided coordinates inside the source. -/
theorem cupRepeatsSamples : Obligations.CupRepeatsSamples := by
  intro dd ds m s hm Dd Ds sx sy
  have hlegal := modeLegal_of_ne hm
  refine ⟨decode_commandWord (i := .cup dd ds m) rfl hlegal, ?_⟩
  refine chroma_raises_or_writes hlegal rfl ((needChromaShapes_fails Dd Ds m).trans or_left_comm)
    fun hshape t hholds hfinite y x hy hx => ?_
  simp only [not_or, not_not] at hshape
  obtain ⟨-, -, hw, hh⟩ := hshape
  refine ⟨hh ▸ div_lt_cdiv (modeSy_pos m) hy, hw ▸ div_lt_cdiv (modeSx_pos m) hx, ?_⟩
  rw [hholds y x hy hx]
  exact State.moved_of_finite ((allFinite_channelSamples s Ds 0).2 hfinite) _ _

end Sys2Proof.Machine
end

section
/-! PROOF. The statements of the pipeline sequencer: PROC.PLN takes a plane through the active configuration, block by block
or as a whole (R241, R242), and INSPECT fills g0 to g4 with the five grids of a block (R245). -/

namespace Sys2Proof.Machine

/-! ## The two paths of a plane (R241, R242) -/

/-- The block-DCT path: a position of a full block has its sample of the processed block, a boundary sample stays. -/
theorem processDct_get {S : Type} (N : Num S) (qen : Bool) (T : GridOf S) (w h : Nat) (W : Plane S) (row col : Nat) :
    (processDct N qen T w h W).get row col =
      if row < 8 * (h / 8) ∧ col < 8 * (w / 8) then
        gridAt (processBlock N qen T (blockAt W (8 * (row / 8)) (8 * (col / 8)))) (row % 8) (col % 8)
      else W.get row col := by
  simp only [processDct, tabulate_eq, inFullBlock, Bool.and_eq_true, decide_eq_true_eq]

/-- The coefficients that the wavelet path inverts: quantised and dequantised by their subband steps with QEN set. -/
def waveletCoefficients {S : Type} (N : Num S) (qen : Bool) (base : S) (w h L : Nat) (C : Plane S) : Plane S :=
  if qen = true then ⟨fun row col => requant N (C.get row col) (dwtStep N col row w h L base)⟩ else C

/-- The wavelet path without its tabulation: the whole plane, with `calcLevels` levels. -/
theorem processDwt_eq {S : Type} (N : Num S) (qen : Bool) (base : S) (w h : Nat) (W : Plane S) :
    processDwt N qen base w h W = dwtInverse N w h (calcLevels w h)
      (waveletCoefficients N qen base w h (calcLevels w h) (dwtForward N w h (calcLevels w h) W)) := by
  rw [processDwt, tabulate_eq]
  rfl

section
variable {s : State}

theorem processed_of_dct (hx : cfgXform s.cfg = false) (D : Desc) (sel : TableSel) :
    s.processed D sel =
      processDct Binary64.num (cfgQen s.cfg) (s.table sel) D.w.toNat D.h.toNat (s.plane D) := by
  rw [State.processed, tabulate_eq, hx]
  rfl

theorem processed_of_wavelet (hx : cfgXform s.cfg = true) (D : Desc) (sel : TableSel) :
    s.processed D sel =
      processDwt Binary64.num (cfgQen s.cfg) s.basestep D.w.toNat D.h.toNat (s.plane D) := by
  rw [State.processed, tabulate_eq, hx]
  rfl

/-! ## The inputs of PROC.PLN (R10, R242) -/

theorem allFinite_procSteps_of_dct (hx : cfgXform s.cfg = false) {D : Desc} {sel : TableSel}
    (htable : cfgQen s.cfg = true → 8 ≤ D.w.toNat → 8 ≤ D.h.toNat → FiniteGrid (s.table sel)) :
    allFinite (s.procSteps D sel) = true := by
  rw [State.procSteps, hx]
  cases hq : cfgQen s.cfg with
  | false => rfl
  | true =>
    cases hfull : hasFullBlock D.w.toNat D.h.toNat with
    | false => rfl
    | true =>
      obtain ⟨hw, hh⟩ : 8 ≤ D.w.toNat ∧ 8 ≤ D.h.toNat := by simpa [hasFullBlock] using hfull
      exact (allFinite_gridSamples _).2 (htable hq hw hh)

theorem allFinite_procSteps_of_wavelet (hx : cfgXform s.cfg = true) {D : Desc} {sel : TableSel}
    (hbase : cfgQen s.cfg = true → Binary64.isFinite s.basestep = true) : allFinite (s.procSteps D sel) = true := by
  rw [State.procSteps, hx]
  cases hq : cfgQen s.cfg with
  | false => rfl
  | true => exact (allFinite_cons _ _).trans (by rw [hbase hq]; rfl)

end

/-! ## PROC.PLN (R242) -/

/-- Plane `dst` in t holds the plane `W` up to the signs of zeros, and exactly where `PROC.PLN` copies. -/
def HoldsProcessed (dst src : Desc) (W : Plane Sample) (s t : State) : Prop :=
  ∀ row col, row < src.h.toNat → col < src.w.toNat →
    sameSample (t.memRead (dst.idx row col 0)) (W.get row col)
    ∧ (procComputes (cfgXform s.cfg) (cfgQen s.cfg) src.w.toNat src.h.toNat row col = false →
      t.memRead (dst.idx row col 0) = W.get row col)

/-- The checks of R242 in order, and then the processed plane where its inputs are finite. -/
theorem procPln_raises_or_processes (dd ds : RegNum) (sel : TableSel) (s : State) {goal : State → Prop}
    (hgoal : ∀ t, (allFinite (s.channelSamples (s.desc ds) 0) = true → allFinite (s.procSteps (s.desc ds) sel) = true →
      HoldsProcessed (s.desc dd) (s.desc ds) (s.processed (s.desc ds) sel) s t) → goal t) :
    if s.descValid dd = false ∨ s.descValid ds = false then Raises (.procPln dd ds sel) s .uninit
    else if s.status.cfgv = false then Raises (.procPln dd ds sel) s .uninit
    else if (s.desc ds).c ≠ 1 ∨ (s.desc dd).c ≠ 1 ∨ (s.desc dd).w ≠ (s.desc ds).w ∨ (s.desc dd).h ≠ (s.desc ds).h then
      Raises (.procPln dd ds sel) s .shape
    else if (s.desc dd).meets (s.desc ds) = true then Raises (.procPln dd ds sel) s .aliasing
    else (s.desc dd).legal s.memSamples = true → (s.desc ds).legal s.memSamples = true →
      ∃ t, exec (.procPln dd ds sel) s = .next t ∧ OnlyMemory s t ∧ OutsideUnchanged (s.desc dd) s t ∧ goal t := by
  refine ite_raises_of_needDescs rfl fun h => ?_
  refine ite_raises_of_check h (needConfig_fails s) fun _ h => ?_
  refine ite_raises_of_check h (needPlanes_fails _ _) fun hshape h => ?_
  refine ite_raises_of_check h (needApart_fails _ _) fun _ h hDd hDs => ?_
  obtain ⟨-, -, hch, -⟩ := (Desc.legal_iff _ _).1 hDd
  simp only [not_or, not_not] at hshape
  obtain ⟨-, -, hw, hh⟩ := hshape
  refine ⟨_, exec_of_reaching_pair h hDd hDs, onlyMemory_memWriteAll s _, outsideUnchanged_writeChannel s hch _,
    hgoal _ fun hsource hsteps row col hr hc => ?_⟩
  have hfinite : allFinite (s.channelSamples (s.desc ds) 0 ++ s.procSteps (s.desc ds) sel) = true := by
    rw [allFinite_append, hsource, hsteps, Bool.and_self]
  rw [memRead_complete, s.memRead_writeChannel _ 0 _ (hh ▸ hr) (hw ▸ hc) hch]
  split
  case isTrue hcomputes =>
    exact ⟨sameSample_computed_of_finite hfinite _ _, fun hcopies => absurd hcomputes (by simp [hcopies])⟩
  case isFalse =>
    rw [State.moved_of_finite hfinite]
    exact ⟨sameSample_refl _, fun _ => rfl⟩

/-- Settles O48: `procPln_raises_or_processes`, and the equations of the two paths for the plane that it processes. -/
theorem procPlnReconstructsPlane : Obligations.ProcPlnReconstructsPlane := by
  intro dd ds sel s Dd Ds w h N qen W again
  have hword : encode (.procPln dd ds sel) = assemble 0x70#8 dd ds 0 (selectorField sel) := by
    rw [selectorField_eq]
    rfl
  refine ⟨decode_commandWord hword rfl, ?_⟩
  refine procPln_raises_or_processes dd ds sel s fun t hholds hsource => ?_
  replace hholds := hholds ((allFinite_channelSamples s Ds 0).2 hsource)
  split
  case isTrue hx =>
    intro htable row col hr hc
    obtain ⟨hsame, hcopied⟩ := hholds (allFinite_procSteps_of_dct hx htable) row col hr hc
    rw [processed_of_dct hx, processDct_get] at hsame hcopied
    split
    case isTrue hfull =>
      rw [if_pos hfull] at hsame
      exact hsame
    case isFalse hboundary =>
      rw [if_neg hboundary] at hcopied
      refine hcopied ?_
      change cfgXform s.cfg = false at hx
      rw [hx]
      simpa [procComputes, inFullBlock] using hboundary
  case isFalse hx =>
    intro L C C' hbase row col hr hc
    replace hx : cfgXform s.cfg = true := Bool.not_eq_false _ ▸ hx
    obtain ⟨hsame, -⟩ := hholds (allFinite_procSteps_of_wavelet hx hbase) row col hr hc
    rw [processed_of_wavelet hx, processDwt_eq] at hsame
    exact hsame

/-! ## The snapshot of a block (R22, R245) -/

section
variable (s : State) (A B C D E : Grid)

/-- g0 to g4 after a snapshot are its five grids, and the other grids stay. -/
theorem State.grid_setSnapshot (n : RegNum) :
    (s.setSnapshot A B C D E).grid n = [A, B, C, D, E].getD n.val (s.grid n) := by
  simp only [State.setSnapshot, State.grid, State.setGrid_grids, Fin.getElem_fin, Vector.getElem_set]
  fin_cases n <;> rfl

/-- The five valid bits that a snapshot sets (R36). -/
theorem gvalid_setSnapshot : (s.setSnapshot A B C D E).gvalid = s.gvalid ||| 0x1F#8 := by
  simp only [State.setSnapshot, State.setGrid_gvalid, setValid, BitVec.or_assoc]
  rfl

theorem onlySnapshot_setSnapshot : OnlySnapshot s (s.setSnapshot A B C D E).complete := by
  refine ⟨?_, fun m hm => ?_⟩
  · rw [← gvalid_setSnapshot s A B C D E]
    rfl
  · exact (s.grid_setSnapshot A B C D E m).trans (List.getD_eq_default _ _ hm)

end

/-- A loaded block as R123 states it. -/
theorem loadBlock_eq (s : State) (d : Desc) (bx by' ch : Nat) :
    s.loadBlock d bx by' ch = gridOf fun i j =>
      if 8 * by' + i < d.h.toNat ∧ 8 * bx + j < d.w.toNat then s.memRead (d.idx (8 * by' + i) (8 * bx + j) ch) else 0#64 :=
  grid_ext fun i j hi hj => by rw [gridAt_loadBlock s d bx by' ch hi hj, gridAt_gridOf _ hi hj]

/-- The coefficient grid that `INSPECT` shows as indices: quantised by the table with QEN set (R245). -/
def snapshotIndices {S : Type} (N : Num S) (qen : Bool) (F T : GridOf S) : GridOf S :=
  if qen = true then gridZip (quant N) F T else F

/-- The coefficient grid that `INSPECT` reconstructs from: the indices dequantised with QEN set (R245). -/
def snapshotCoefficients {S : Type} (N : Num S) (qen : Bool) (F T : GridOf S) : GridOf S :=
  if qen = true then gridZip (dequant N) (snapshotIndices N qen F T) T else F

theorem snapshotCoefficients_eq {S : Type} (N : Num S) (qen : Bool) (F T : GridOf S) :
    snapshotCoefficients N qen F T = if qen = true then gridZip (dequant N) (gridZip (quant N) F T) T else F := by
  rw [snapshotCoefficients]
  split
  case isTrue hq => rw [snapshotIndices, if_pos hq]
  case isFalse => rfl

theorem sameGrid_computedGrid_of_finite {s : State} {finite : Bool} (h : finite = true) (nth : Nat) (g : Grid) :
    sameGrid (s.computedGrid finite nth g) g := by
  subst h
  exact sameGrid_computedGrid s nth g

theorem movedGrid_of_finite {s : State} {finite : Bool} (h : finite = true) (nth : Nat) (g : Grid) :
    s.movedGrid finite nth g = g := by
  subst h
  exact movedGrid_finite s nth g

/-- The five grids of R245 for a block whose samples and table are finite. -/
theorem snapshot_grids {s : State} {d : Desc} {sel : TableSel}
    (hfinite : allFinite (s.blockSamples d s.a0.toNat s.a1.toNat s.a2.toNat ++ gridSamples (s.table sel)) = true)
    {O F : Grid} (hO : s.loadBlock d s.a0.toNat s.a1.toNat s.a2.toNat = O) (hF : dctForward Binary64.num O = F) :
    (s.snapshot d sel).grid 0 = O ∧ sameGrid ((s.snapshot d sel).grid 1) F ∧ (s.snapshot d sel).grid 2 = s.table sel
    ∧ sameGrid ((s.snapshot d sel).grid 3) (snapshotIndices Binary64.num (cfgQen s.cfg) F (s.table sel))
    ∧ sameGrid ((s.snapshot d sel).grid 4)
      (dctInverse Binary64.num (snapshotCoefficients Binary64.num (cfgQen s.cfg) F (s.table sel))) := by
  subst hF hO
  simp only [State.snapshot, State.grid_setSnapshot, movedGrid_of_finite hfinite]
  have hcomputed := sameGrid_computedGrid_of_finite (s := s) hfinite
  refine ⟨rfl, hcomputed 1 _, rfl, ?_, ?_⟩
  · rw [snapshotIndices]
    cases cfgQen s.cfg with
    | true => exact hcomputed 3 _
    | false => exact hcomputed 1 _
  · rw [snapshotCoefficients_eq]
    exact hcomputed 4 _

/-! ## INSPECT (R245) -/

theorem gridAt_zeroGrid (i j : Nat) : gridAt zeroGrid i j = 0#64 := by
  simp [gridAt, zeroGrid, zeroSample]

/-- Settles O49: the checks, those of the arguments only under block-DCT, and then `snapshot_grids`. -/
theorem inspectFillsSnapshot : Obligations.InspectFillsSnapshot := by
  intro ds sel s D N row col qen
  have hword : encode (.inspect ds sel) = assemble 0x71#8 ds 0 0 (selectorField sel) := by
    rw [selectorField_eq]
    rfl
  refine ⟨decode_commandWord hword rfl, ?_⟩
  refine ite_raises_of_check rfl (needDesc_fails s ds) fun _ h => ?_
  refine ite_raises_of_check h (needConfig_fails s) fun _ h => ?_
  split
  case isTrue hx =>
    rw [show cfgXform s.cfg = true from hx] at h
    refine ⟨_, h, onlySnapshot_setSnapshot s _ _ _ _ _, fun n hn i j _ _ => ?_⟩
    have hzero : (s.setSnapshot zeroGrid zeroGrid zeroGrid zeroGrid zeroGrid).grid n = zeroGrid := by
      rw [State.grid_setSnapshot]
      exact List.getD_replicate (n := 5) _ hn
    exact (congrArg (gridAt · i j) hzero).trans (gridAt_zeroGrid i j)
  case isFalse hx =>
    rw [show cfgXform s.cfg = false from Bool.not_eq_true _ ▸ hx] at h
    refine ite_raises_of_check h (needChannel_fails s D) fun _ h => ?_
    refine ite_raises_of_check h (needBlock_fails s D) fun _ h hlegal => ?_
    intro O F T K R
    refine ⟨_, exec_of_reaching h (List.forall_mem_singleton.2 hlegal), onlySnapshot_setSnapshot s _ _ _ _ _,
      fun hblock htable => ?_⟩
    have hfinite : allFinite (s.blockSamples D s.a0.toNat s.a1.toNat s.a2.toNat ++ gridSamples T) = true := by
      rw [allFinite_append, (allFinite_blockSamples s D _ _ _).2 hblock, (allFinite_gridSamples T).2 htable, Bool.and_self]
    exact snapshot_grids hfinite (loadBlock_eq s D _ _ _) rfl

end Sys2Proof.Machine
end

section
/-! PROOF. The statements of PSNR and ARTMAP (R261, R262, R270), and what the metrics share: the soft result of images that
do not match, and the two results of images that do. -/

namespace Sys2Proof.Machine

/-! ## Matching images (R261) -/

theorem Desc.sameShape_iff (d e : Desc) : d.sameShape e = true ↔ d.w = e.w ∧ d.h = e.h ∧ d.c = e.c := by
  simp only [Desc.sameShape, Bool.and_eq_true, beq_iff_eq, and_assoc]

theorem Desc.samples_of_sameShape {d e : Desc} (h : d.sameShape e = true) : d.samples = e.samples := by
  obtain ⟨hw, hh, hc⟩ := (Desc.sameShape_iff d e).1 h
  rw [Desc.samples, Desc.samples, hw, hh, hc]

/-- A statement's condition on two shapes is the command's test whether the images match. -/
theorem ite_of_sameShape {d e : Desc} {soft goal : Prop} (hsoft : d.sameShape e = false → soft)
    (hmatch : d.sameShape e = true → goal) : if d.w ≠ e.w ∨ d.h ≠ e.h ∨ d.c ≠ e.c then soft else goal := by
  split
  case isTrue hdiffer =>
    refine hsoft (Bool.eq_false_iff.2 fun h => ?_)
    obtain ⟨hw, hh, hc⟩ := (Desc.sameShape_iff d e).1 h
    exact hdiffer.elim (· hw) (·.elim (· hh) (· hc))
  case isFalse hsame =>
    simp only [not_or, not_not] at hsame
    exact hmatch ((Desc.sameShape_iff d e).2 hsame)

/-- The finite samples of two images are finite inputs of a command that reads both. -/
theorem allFinite_imagePair {s : State} {A B : Desc} (hA : s.finiteImage A) (hB : s.finiteImage B) :
    allFinite (s.imageSamples A ++ s.imageSamples B) = true := by
  rw [allFinite_append, (allFinite_imageSamples s A).2 hA, (allFinite_imageSamples s B).2 hB, Bool.and_self]

/-! ## The results of a metric command (R44, R261) -/

section
variable {i : Instr} {s : State}

/-- A metric command with its soft result writes zeros and MISMATCH and nothing else. -/
theorem metric_soft (h : exec i s = .next s.softResult.complete) :
    ∃ t, exec i s = .next t ∧ OnlyResults s t true ∧ t.res0 = 0#64 ∧ t.res1 = 0#64 :=
  ⟨_, h, rfl, rfl, rfl⟩

/-- A metric command whose checks passed, on two legal images: it writes its two results and clears MISMATCH, and the
results of finite images are the computed values. -/
theorem metric_completes {A B : Desc} {finite : Bool} {x y : Sample}
    (h : exec i s = run i s [] (reaching s [A, B]
      (completes ((s.setResults (s.computed finite 0 x) (s.computed finite 1 y)).setMismatch false))))
    (hfinite : s.finiteImage A → s.finiteImage B → finite = true)
    (hA : A.legal s.memSamples = true) (hB : B.legal s.memSamples = true) :
    ∃ t, exec i s = .next t ∧ OnlyResults s t false
      ∧ (s.finiteImage A → s.finiteImage B → sameSample t.res1 y ∧ sameSample t.res0 x) :=
  ⟨_, exec_of_reaching_pair h hA hB, rfl, fun fA fB =>
    ⟨sameSample_computed_of_finite (hfinite fA fB) 1 y, sameSample_computed_of_finite (hfinite fA fB) 0 x⟩⟩

end

/-! ## PSNR (R262) -/

/-- The mean square of two lists read place by place is the loop of R262. -/
theorem meanSquare_range {S : Type} (N : Num S) (n : Nat) (a b : Nat → S) :
    meanSquare N ((List.range n).map a) ((List.range n).map b) =
      N.div ((List.range n).foldl (fun acc k => N.add acc (N.mul (N.sub (a k) (b k)) (N.sub (a k) (b k)))) (N.ofInt 0))
        (N.ofInt n) := by
  rw [meanSquare, Num.sum, List.zipWith_map, List.zipWith_self, List.foldl_map, List.length_map, List.length_range]

/-- The checks of R262 in order, then the soft result of images that do not match, and then the results of images that do. -/
theorem psnr_raises_or_results (da db : RegNum) (s : State) {goal : State → Prop}
    (hgoal : (s.desc da).sameShape (s.desc db) = true → ∀ t, OnlyResults s t false →
      (s.finiteImage (s.desc da) → s.finiteImage (s.desc db) →
        let mse := meanSquare Binary64.num (s.imageSamples (s.desc da)) (s.imageSamples (s.desc db))
        sameSample t.res1 mse ∧ sameSample t.res0 (psnrOf Binary64.num mse)) → goal t) :
    if s.descValid da = false ∨ s.descValid db = false then Raises (.psnr da db) s .uninit
    else if (s.desc da).w ≠ (s.desc db).w ∨ (s.desc da).h ≠ (s.desc db).h ∨ (s.desc da).c ≠ (s.desc db).c then
      ∃ t, exec (.psnr da db) s = .next t ∧ OnlyResults s t true ∧ t.res0 = 0#64 ∧ t.res1 = 0#64
    else (s.desc da).legal s.memSamples = true → (s.desc db).legal s.memSamples = true →
      ∃ t, exec (.psnr da db) s = .next t ∧ goal t := by
  refine ite_raises_of_needDescs rfl fun h => ?_
  refine ite_of_sameShape (fun hdiffer => ?_) fun hsame hA hB => ?_
  · rw [hdiffer] at h
    exact metric_soft h
  · rw [hsame] at h
    obtain ⟨t, ht, honly, hvalues⟩ := metric_completes h allFinite_imagePair hA hB
    exact ⟨t, ht, hgoal hsame t honly hvalues⟩

/-- Settles O50: `psnr_raises_or_results`, with the mean square as the loop of R262. -/
theorem psnrWritesResults : Obligations.PsnrWritesResults := by
  intro da db s A B N n e mse
  refine ⟨decode_commandWord rfl rfl, ?_⟩
  refine psnr_raises_or_results da db s fun hsame t honly hvalues => ⟨honly, ?_⟩
  have hmse : meanSquare N (s.imageSamples A) (s.imageSamples B) = mse := by
    rw [State.imageSamples, State.imageSamples, ← Desc.samples_of_sameShape hsame]
    exact meanSquare_range N n _ _
  rwa [hmse] at hvalues

/-! ## ARTMAP (R270) -/

/-- The three validity checks of a command on three images. -/
theorem ite_raises_of_needDescs_three {i : Instr} {s : State} {checks : Checks} {effects : Result} {goal : Prop}
    {dd da db : RegNum}
    (h : exec i s = run i s (needDesc s dd :: needDesc s da :: needDesc s db :: checks) effects)
    (hrest : exec i s = run i s checks effects → goal) :
    if s.descValid dd = false ∨ s.descValid da = false ∨ s.descValid db = false then Raises i s .uninit else goal :=
  ite_raises_of_check (h.trans ((run_checks_or _ _ _).trans (run_checks_or _ _ _))) (by simp [or_assoc]) fun _ => hrest

/-- Settles O53. -/
theorem artmapAmplifiesDifference : Obligations.ArtmapAmplifiesDifference := by
  intro dd da db s Dd A B N
  refine ⟨decode_commandWord rfl rfl, ?_⟩
  refine ite_raises_of_needDescs_three rfl fun h => ?_
  refine ite_raises_of_check h (needSameShape_fails Dd A) fun hshape h => ?_
  refine ite_raises_of_check h Bool.or_eq_true_iff fun _ h => ?_
  refine ite_of_sameShape (fun hdiffer => ?_) fun hsame hDd hA hB => ?_
  · rw [show (s.desc da).sameShape (s.desc db) = false from hdiffer] at h
    exact h
  · rw [show (s.desc da).sameShape (s.desc db) = true from hsame] at h
    have hlegal : ∀ d ∈ [Dd, A, B], d.legal s.memSamples = true := by simp [hDd, hA, hB]
    refine ⟨_, exec_of_reaching h hlegal, rfl, outsideUnchanged_writeImage s Dd _, fun fA fB hgain k hk => ?_⟩
    simp only [not_or, not_not] at hshape
    have hsamples : Dd.samples = A.samples := Desc.samples_of_sameShape ((Desc.sameShape_iff Dd A).2 hshape)
    have hfinite : allFinite (s.gain :: (s.imageSamples A ++ s.imageSamples B)) = true := by
      rw [allFinite_cons, hgain, allFinite_imagePair fA fB, Bool.and_self]
    rw [memRead_complete, memRead_setMismatch, s.memRead_writeImage Dd _ (hsamples ▸ hk)]
    exact sameSample_computed_of_finite hfinite _ _

end Sys2Proof.Machine
end

section
/-! PROOF. Binary64 results that are zeros: what the operations of R262 give on the differences of an image from itself. -/

namespace Sys2Proof.Machine.Binary64

/-! ## Magnitudes (R7 (b)) -/

/-- The magnitude bits survive packing, those of infinity too. -/
theorem magBits_pack_of_le (neg : Bool) {m : Nat} (h : m ≤ infMag) : magBits (pack neg m) = m := by
  unfold infMag at h
  cases neg <;> simp only [magBits, pack, BitVec.toNat_ofNat, if_true, Bool.false_eq_true, if_false] <;> omega

theorem sign_pack_false {m : Nat} (h : m ≤ infMag) : sign (pack false m) = false := by
  unfold infMag at h
  simp only [sign, pack, BitVec.msb_eq_decide, BitVec.toNat_ofNat, Bool.false_eq_true, if_false, decide_eq_false_iff_not]
  omega

theorem nearestEven_zero (d : Nat) : nearestEven 0 d = 0 := by
  simp [nearestEven]

theorem roundMag_zero (d : Nat) : roundMag 0 d = 0 := by
  unfold roundMag
  rw [Nat.zero_mul]
  simp [nearestEven_zero]

/-- A quotient of at least one unit of 2^-1074 does not round to 0. -/
theorem roundMag_pos {n d : Nat} (hd : 0 < d) (h : d ≤ n * 2 ^ 1074) : 0 < roundMag n d := by
  unfold roundMag
  generalize n * 2 ^ 1074 = u at h
  have hq : u / d ≠ 0 := (Nat.div_pos h hd).ne'
  have hk : 2 ^ ((u / d).log2 - 52) ≤ u / d :=
    (Nat.pow_le_pow_right Nat.two_pos (Nat.sub_le _ _)).trans (Nat.log2_self_le hq)
  have hone : 1 ≤ nearestEven u (d * 2 ^ ((u / d).log2 - 52)) := by
    refine nearestEven_ge (Nat.mul_pos hd (Nat.two_pow_pos _)) ?_
    rw [Nat.one_mul, Nat.mul_comm]
    exact (Nat.le_div_iff_mul_le hd).1 hk
  exact Nat.lt_min.2 ⟨by decide, by omega⟩

/-! ## Zeros -/

@[simp] theorem isZero_pack_zero (neg : Bool) : isZero (pack neg 0) = true := by
  simp [isZero, magBits_pack_of_le neg (Nat.zero_le infMag)]

section
variable {a b : Sample}

theorem magBits_of_isZero (h : isZero a = true) : magBits a = 0 := by
  simpa [isZero] using h

theorem isFinite_of_isZero (h : isZero a = true) : isFinite a = true := by
  simp [isFinite, magBits_of_isZero h, infMag]

theorem units_of_isZero (h : isZero a = true) : units a = 0 := by
  simp [units, magBits_of_isZero h]

theorem value_of_isZero (h : isZero a = true) : value a = 0 := by
  simp [value, units_of_isZero h]

theorem value_neg (a : Sample) : value (neg a) = -value a := by
  have h := (neg_exact a).2
  rw [sampleReal, sampleReal, ← neg_div, div_left_inj' (by positivity)] at h
  exact_mod_cast h

/-- Finite samples whose values cancel have a zero sum. -/
theorem isZero_add (ha : isFinite a = true) (hb : isFinite b = true) (h : value a + value b = 0) :
    isZero (add a b) = true := by
  unfold add
  simp [not_isNaN ha, not_isNaN hb, not_isInf ha, not_isInf hb, h]

/-- A finite sample minus itself. -/
theorem isZero_sub_self (ha : isFinite a = true) : isZero (sub a a) = true := by
  rw [sub, not_isNaN ha, Bool.or_self, if_neg Bool.false_ne_true]
  exact isZero_add ha ((neg_exact a).1.trans ha) (by rw [value_neg, Int.add_right_neg])

theorem isZero_mul (ha : isZero a = true) (hb : isFinite b = true) : isZero (mul a b) = true := by
  have fa := isFinite_of_isZero ha
  unfold mul
  simp only [not_isNaN fa, not_isNaN hb, not_isInf fa, not_isInf hb, units_of_isZero ha, Nat.zero_mul, roundMag_zero,
    Bool.or_self, Bool.false_eq_true, if_false, isZero_pack_zero]

/-- A zero divided by a number that is no zero, which may be infinite. -/
theorem isZero_div (ha : isZero a = true) (hb : isNaN b = false) (h0 : isZero b = false) : isZero (div a b) = true := by
  have fa := isFinite_of_isZero ha
  unfold div
  simp [not_isNaN fa, hb, not_isInf fa, h0, units_of_isZero ha, roundMag_zero]

/-- A sum of zeros is a zero. -/
theorem isZero_foldl_add (xs : List Sample) (h : ∀ x ∈ xs, isZero x = true) (ha : isZero a = true) :
    isZero (xs.foldl add a) = true := by
  induction xs generalizing a with
  | nil => exact ha
  | cons x xs ih =>
    have hx := h x List.mem_cons_self
    refine ih (fun x' hx' => h x' (List.mem_cons_of_mem _ hx')) ?_
    exact isZero_add (isFinite_of_isZero ha) (isFinite_of_isZero hx) (by rw [value_of_isZero ha, value_of_isZero hx]; rfl)

/-- A zero is at most any decimal literal, which has no sign. -/
theorem le_ofDec_of_isZero (ha : isZero a = true) (m k : Nat) : le a (ofDec m k) = true := by
  have hm := roundMag_le_infMag m (10 ^ k)
  simp [le, rank, magBits_of_isZero ha, not_isNaN (isFinite_of_isZero ha), ofDec, isNaN_pack false hm, sign_pack_false hm]

end

/-- The sample of a positive integer is no zero. -/
theorem isZero_ofInt {n : Nat} (h : 0 < n) : isZero (ofInt n) = false := by
  have hpos : 0 < roundMag n 1 := roundMag_pos Nat.one_pos (Nat.mul_pos h (Nat.two_pow_pos 1074))
  simp [isZero, ofInt, magBits_pack_of_le _ (roundMag_le_infMag n 1), hpos.ne']

theorem isZero_ofInt_zero : isZero (ofInt 0) = true := by
  simp [ofInt, roundMag_zero]

end Sys2Proof.Machine.Binary64

namespace Sys2Proof.Machine

/-! ## The PSNR of an image with itself (R262, R302) -/

theorem sameSample.isZero_eq {x y : Sample} (h : sameSample x y) : Binary64.isZero x = Binary64.isZero y := by
  obtain rfl | ⟨hx, hy⟩ := h
  · rfl
  · rw [hx, hy]

/-- A sample that is no zero is the same sample as itself only. -/
theorem sameSample.eq_of_nonzero {x y : Sample} (h : sameSample x y) (hy : Binary64.isZero y = false) : x = y :=
  h.resolve_right fun hzero => Bool.false_ne_true (hy.symm.trans hzero.2)

/-- The mean squared difference of finite samples from themselves. -/
theorem isZero_meanSquare_self {xs : List Sample} (hfinite : allFinite xs = true) (hne : 0 < xs.length) :
    Binary64.isZero (meanSquare Binary64.num xs xs) = true := by
  refine Binary64.isZero_div (Binary64.isZero_foldl_add _ (fun x hx => ?_) Binary64.isZero_ofInt_zero)
    (Binary64.isNaN_ofInt _) (Binary64.isZero_ofInt hne)
  rw [List.zipWith_self] at hx
  obtain ⟨a, ha, rfl⟩ := List.mem_map.1 hx
  have hdiff := Binary64.isZero_sub_self ((allFinite_iff xs).1 hfinite a ha)
  exact Binary64.isZero_mul hdiff (Binary64.isFinite_of_isZero hdiff)

/-- A mean squared error that is a zero has the PSNR of the ceiling. -/
theorem psnrOf_of_isZero {mse : Sample} (h : Binary64.isZero mse = true) :
    psnrOf Binary64.num mse = Binary64.ofInt 100 :=
  if_pos (Binary64.le_ofDec_of_isZero h 1 10)

/-- Settles O51: every difference is a zero, so the mean squared error is one too, and the PSNR is the ceiling. -/
theorem psnrOfSameImageIsCeiling : Obligations.PsnrOfSameImageIsCeiling := by
  intro d s himage hfinite
  obtain ⟨hvalid, hlegal⟩ := himage
  obtain ⟨hw, hh, hc, -⟩ := (Desc.legal_iff _ _).1 hlegal
  have hpsnr := psnr_raises_or_results d d s (goal := fun t =>
    t.res0 = Binary64.ofInt 100 ∧ Binary64.isZero t.res1 = true ∧ t.status.mismatch = false) fun _ t honly hvalues => by
    obtain ⟨hres1, hres0⟩ := hvalues hfinite hfinite
    have hmse := isZero_meanSquare_self ((allFinite_imageSamples s _).2 hfinite) (by
      rw [State.imageSamples, List.length_map, List.length_range]
      exact Nat.mul_pos (Nat.mul_pos hw hh) hc)
    rw [psnrOf_of_isZero hmse] at hres0
    obtain ⟨-, hhundred⟩ := Binary64.ofInt_finite_nonzero (i := 100) (by decide) (by decide)
    exact ⟨hres0.eq_of_nonzero hhundred, hres1.isZero_eq.trans hmse, congrArg (·.status.mismatch) honly⟩
  rw [if_neg (by simp [hvalid]), if_neg (by simp)] at hpsnr
  exact hpsnr hlegal hlegal

end Sys2Proof.Machine
end

section
/-! PROOF. The statement of SSIM (R263, R264, R266): the checks of matching images after the soft result, the windows place
by place, and the sum of their indices by the rule's nested loops. -/

namespace Sys2Proof.Machine

/-! ## The windows (R263) -/

theorem windowCount_of_le {d : Nat} (h : ¬ d < 8) : windowCount d = (d - 8) / 4 + 1 := if_neg h

/-- The last window of a side ends inside it. -/
theorem windowCount_inside {d : Nat} (h : ¬ d < 8) : 4 * windowCount d + 4 ≤ d := by
  rw [windowCount_of_le h]
  omega

@[simp] theorem length_rowMajor (h w : Nat) : (rowMajor h w).length = h * w := by
  simp [rowMajor]

theorem length_windowOrigins (w h : Nat) : (windowOrigins w h).length = windowCount h * windowCount w := by
  rw [windowOrigins, List.length_map, length_rowMajor]

/-- The positions of an 8×8 window, place by place. -/
theorem rowMajor_eight : rowMajor 8 8 = (List.range 64).map fun k => (k / 8, k % 8) := by decide

/-- A window of an image's plane, place by place. -/
theorem windowAt_plane (s : State) (d : Desc) (y x : Nat) :
    windowAt (s.plane d) y x = (List.range 64).map fun k => s.memRead (d.idx (y + k / 8) (x + k % 8) 0) := by
  rw [windowAt, rowMajor_eight, List.map_map]
  rfl

/-- The mean over the windows is the quotient of the nested loops of R266. -/
theorem meanSsim_eq {S : Type} (N : Num S) (A B : Plane S) (w h : Nat) :
    meanSsim N A B w h = N.div
      ((List.range (windowCount h)).foldl (fun acc i => (List.range (windowCount w)).foldl (fun acc j =>
        N.add acc (ssimIndex N (windowAt A (4 * i) (4 * j)) (windowAt B (4 * i) (4 * j)))) acc) (N.ofInt 0))
      (N.ofInt (windowCount h * windowCount w : Nat)) := by
  rw [meanSsim, length_windowOrigins, windowOrigins, List.map_map, ← Num.sum_rowMajor]
  rfl

/-- The windows of a plane cover samples of its image only. -/
theorem allFinite_windowSamples {s : State} {d : Desc} (hc : 0 < d.c.toNat) (hw : ¬ d.w.toNat < 8) (hh : ¬ d.h.toNat < 8)
    (hfinite : s.finiteImage d) : allFinite (windowSamples (s.plane d) d.w.toNat d.h.toNat) = true := by
  rw [allFinite_iff]
  intro x hx
  obtain ⟨p, hp, rfl⟩ := List.mem_map.1 hx
  obtain ⟨hr, hcol⟩ := (mem_rowMajor _ _ _).1 hp
  have hlo := d.base_le_idx p.1 p.2 0
  have hhi := d.idx_lt_limit (hr.trans_le (windowCount_inside hh)) (hcol.trans_le (windowCount_inside hw)) hc
  have hk := hfinite (d.idx p.1 p.2 0 - d.base.toNat) (by rw [Desc.limit] at hhi; omega)
  rwa [Nat.add_sub_cancel' hlo] at hk

/-! ## SSIM (R266) -/

/-- The checks of R266 in order, the soft result before `SHAPE` and `NO_WINDOW`, and then the results. -/
theorem ssim_raises_or_results (da db : RegNum) (s : State) {goal : State → Prop}
    (hgoal : ¬ ((s.desc da).w.toNat < 8 ∨ (s.desc da).h.toNat < 8) → ∀ t, OnlyResults s t false →
      (s.finiteImage (s.desc da) → s.finiteImage (s.desc db) →
        sameSample t.res1 (Binary64.ofInt (windowOrigins (s.desc da).w.toNat (s.desc da).h.toNat).length)
        ∧ sameSample t.res0 (meanSsim Binary64.num (s.plane (s.desc da)) (s.plane (s.desc db)) (s.desc da).w.toNat
          (s.desc da).h.toNat)) → goal t) :
    if s.descValid da = false ∨ s.descValid db = false then Raises (.ssim da db) s .uninit
    else if (s.desc da).w ≠ (s.desc db).w ∨ (s.desc da).h ≠ (s.desc db).h ∨ (s.desc da).c ≠ (s.desc db).c then
      ∃ t, exec (.ssim da db) s = .next t ∧ OnlyResults s t true ∧ t.res0 = 0#64 ∧ t.res1 = 0#64
    else if (s.desc da).c ≠ 1 then Raises (.ssim da db) s .shape
    else if (s.desc da).w.toNat < 8 ∨ (s.desc da).h.toNat < 8 then Raises (.ssim da db) s .noWindow
    else (s.desc da).legal s.memSamples = true → (s.desc db).legal s.memSamples = true →
      ∃ t, exec (.ssim da db) s = .next t ∧ goal t := by
  refine ite_raises_of_needDescs rfl fun h => ?_
  refine ite_of_sameShape (fun hdiffer => ?_) fun hsame => ?_
  · rw [hdiffer] at h
    exact metric_soft h
  · rw [hsame] at h
    refine ite_raises_of_check h bne_iff_ne fun _ h => ?_
    refine ite_raises_of_check h (by simp) fun hwindow h hA hB => ?_
    simp only [tabulate_eq] at h
    obtain ⟨hw, hh⟩ := not_or.1 hwindow
    obtain ⟨ew, eh, -⟩ := (Desc.sameShape_iff _ _).1 hsame
    obtain ⟨-, -, hcA, -⟩ := (Desc.legal_iff _ _).1 hA
    obtain ⟨-, -, hcB, -⟩ := (Desc.legal_iff _ _).1 hB
    obtain ⟨t, ht, honly, hvalues⟩ := metric_completes h (fun fA fB => by
      rw [allFinite_append, allFinite_windowSamples hcA hw hh fA, ew, eh,
        allFinite_windowSamples hcB (ew ▸ hw) (eh ▸ hh) fB, Bool.and_self]) hA hB
    exact ⟨t, ht, hgoal hwindow t honly hvalues⟩

/-- Settles O52: `ssim_raises_or_results`, with the mean as the loops of R266 over windows read place by place. -/
theorem ssimAveragesWindows : Obligations.SsimAveragesWindows := by
  intro da db s A B N w h nwx nwy window sum index
  refine ⟨decode_commandWord rfl rfl, ?_⟩
  refine ssim_raises_or_results da db s fun hwindow t honly hvalues => ⟨honly, ?_⟩
  obtain ⟨hw, hh⟩ := not_or.1 hwindow
  simp only [meanSsim_eq, length_windowOrigins, windowCount_of_le hw, windowCount_of_le hh, windowAt_plane] at hvalues
  exact hvalues

end Sys2Proof.Machine
end

section
/-! PROOF. Raising a fault, the halted block and the two resets (R35, R301, R305, R306, R340). -/

namespace Sys2Proof.Machine

/-! ## Raising a fault (R301, R305) -/

/-- Settles O8: the effect is `State.raise` itself, the codes are the rows of R301's table. -/
theorem raiseWritesOnlyFaultFields : Obligations.RaiseWritesOnlyFaultFields :=
  ⟨fun _ _ _ => rfl, rfl, rfl, rfl, rfl, rfl, rfl, rfl, rfl, rfl⟩

/-! ## The halted block (R306) -/

/-- What R306 says a halted block keeps: the fault fields, the count, the register files, the tables and the results. -/
def SameHaltedFields (s t : State) : Prop :=
  t.status = s.status ∧ t.fcmd = s.fcmd ∧ t.cmdcnt = s.cmdcnt ∧ t.grids = s.grids ∧ t.gvalid = s.gvalid
    ∧ t.descs = s.descs ∧ t.dvalid = s.dvalid ∧ t.qtLuma = s.qtLuma ∧ t.qtChroma = s.qtChroma ∧ t.res0 = s.res0
    ∧ t.res1 = s.res1

theorem SameHaltedFields.refl (s : State) : SameHaltedFields s s :=
  ⟨rfl, rfl, rfl, rfl, rfl, rfl, rfl, rfl, rfl, rfl, rfl⟩

/-- The one action for which the halt matters: a halted block ignores an issued word. -/
theorem issue_sameHaltedFields {w : Word} {s t : State} (h : issue w s = .next t) (hf : s.status.fault = true) :
    SameHaltedFields s t := by
  rw [issue_of_fault hf] at h
  cases h
  exact .refl s

/-- Settles O13: of the host's actions an issued word is ignored, only the two resets reach these fields, and the rest write
a host register, plane memory or the response. -/
theorem haltEndsOnlyByReset : Obligations.HaltEndsOnlyByReset := by
  intro s t hf h
  obtain ⟨-, rfl⟩ | ⟨a, rest, hs, ha⟩ := step_cases h
  · exact .inr (.inr (SameHaltedFields.refl _))
  obtain ⟨v, -, hi⟩ | ⟨r, rfl⟩ | ⟨i, v, u, rfl, -, hw, rfl⟩ | ⟨b, v, -, -, rfl⟩ | ⟨rfl, -⟩ := act_cases ha
  · have hkept := issue_sameHaltedFields hi hf
    exact .inr (.inr hkept)
  · exact .inr (.inr (SameHaltedFields.refl s))
  · obtain ⟨rfl, hv, -⟩ | ⟨_, _, _, _, _, _, _, _, rfl⟩ := regWrite_cases hw
    · exact .inr (.inl ⟨v, rest, hs, hv⟩)
    · exact .inr (.inr (SameHaltedFields.refl s))
  · exact .inr (.inr (SameHaltedFields.refl s))
  · exact .inl ⟨rest, hs⟩

/-! ## Reset (R35, R48, R340) -/

theorem regWrite_srst_set (s : State) {v : Container} (hv : v.getLsbD 0 = true) : s.regWrite 0x05#8 v = some s.doReset :=
  congrArg some (if_pos hv)

theorem regWrite_srst_clear (s : State) {v : Container} (hv : v.getLsbD 0 = false) : s.regWrite 0x05#8 v = some s :=
  congrArg some (if_neg (Bool.eq_false_iff.1 hv))

/-- A step that takes the reset input resets the block (R340). -/
theorem step_resetInput {s : State} {rest : List HostAction} (h : s.script = .resetInput :: rest) :
    step s = .next ((State.doReset { s with script := rest }).respond .done) := by
  unfold step takeAction
  rw [h]
  rfl

/-- A step that writes 1 to `SRST` does what the reset input does (R35). -/
theorem step_srst_set {s : State} {v : Container} {rest : List HostAction} (h : s.script = .regWrite 0x05#8 v :: rest)
    (hv : v.getLsbD 0 = true) : step s = .next ((State.doReset { s with script := rest }).respond .done) := by
  rw [step_regWrite h (by decide), regWrite_srst_set _ hv]
  rfl

/-- A step that writes 0 to `SRST` changes no register (R35). -/
theorem step_srst_clear {s : State} {v : Container} {rest : List HostAction} (h : s.script = .regWrite 0x05#8 v :: rest)
    (hv : v.getLsbD 0 = false) : step s = .next { s with script := rest, response := .done } := by
  rw [step_regWrite h (by decide), regWrite_srst_clear _ hv]
  rfl

/-- Settles O10: memory is empty, no register is valid and each holds zero, and neither FAULT nor CFGV is set. -/
theorem resetMeetsTheInvariant : Obligations.ResetMeetsTheInvariant where
  memory := ⟨rfl, fun _ hcell => absurd hcell List.not_mem_nil⟩
  descriptors := fun n => by
    have hv : State.reset.descValid n = false := BitVec.getLsbD_zero
    rw [hv]
    exact reset_desc n
  faultFields := ⟨rfl, rfl⟩
  configuration := ⟨rfl, rfl, rfl, rfl⟩
  idle := rfl

/-- Settles O23: both resets take the step to `State.doReset`, whose registers are those of R340. -/
theorem resetRestoresRegisters : Obligations.ResetRestoresRegisters := by
  intro s v rest
  refine ⟨step_srst_clear, fun h => ?_⟩
  have hstep : step s = .next ((State.doReset { s with script := rest }).respond .done) :=
    h.elim step_resetInput fun ⟨hs, hv⟩ => step_srst_set hs hv
  exact ⟨_, hstep, rfl, rfl, rfl, rfl, rfl, rfl, reset_desc, rfl, rfl, rfl, rfl, rfl, rfl, rfl, rfl, rfl, rfl, rfl,
    rfl, rfl, rfl, rfl, rfl⟩

end Sys2Proof.Machine
end
